-- ==== Sys2Proof/Word.lean ====
section
/-! DEFINITION. The word types of the two encoded languages (`30_encoding.md` R46, R51) and the byte that
every transfer moves (R38). Bit 0 is the least significant bit and every value is unsigned (R8). -/

namespace Sys2Proof

/-- One byte: `D_q`, an ARG, a panel byte (R38). -/
abbrev Byte := BitVec 8

/-- A host command word `{OP[3:0], ARG[7:0]}` (R46). -/
abbrev HostWord := BitVec 12

/-- A panel bus word `{RS, D[7:0]}` (R51). -/
abbrev BusWord := BitVec 9

end Sys2Proof
end

