-- ==== Sys2Proof/Machine/PanelState.lean ====
section
/-! DEFINITION. The panel as data: what is known of the hidden state that R30 names (the DDRAM address, the
display contents, the entry mode, whether the panel has switched to 4-bit mode) and of the settings that R91
and R92 give it. The panel is an external agent (R5); R4 admits its effects "only as the document states
them", so every case in which the document states nothing is one of the constructors without contents. -/

namespace Sys2Proof.Machine

/-- Bytes known to stand in one of the panel's memories: (address, byte), addresses strictly rising. An
address that is not listed holds a byte nothing is known of (log 27). -/
abbrev Memory := List Host.Cell

/-- The write direction of the entry mode: WRITE_LEFT (R87) or WRITE_RIGHT (R88). -/
inductive WriteDir where
  | left
  | right
  deriving DecidableEq, Repr, Inhabited

/-- The panel's current address, selected by SET_DDRAM (R94) or SET_CGRAM (R93). -/
inductive PanelAddr where
  | ddram (a : BitVec 7)
  | cgram (a : BitVec 6)
  deriving DecidableEq, Repr, Inhabited

/-- The panel's state once its initialization sequence has run (R119). Its interface is then 8 bits wide. -/
structure PanelRegs where
  /-- D of DISPLAY_CONTROL (R91). -/
  display : Bool
  /-- C of DISPLAY_CONTROL (R91). -/
  cursor : Bool
  /-- B of DISPLAY_CONTROL (R91). -/
  blink : Bool
  /-- N of FUNCTION_SET (R92). -/
  twoLines : Bool
  /-- F of FUNCTION_SET (R92). -/
  bigFont : Bool
  /-- The entry mode's write direction (R87, R88). -/
  dir : WriteDir
  /-- The current address (R93, R94, R95). -/
  addr : PanelAddr
  /-- Known bytes of the memory that holds the shown characters (glossary, R95). -/
  ddram : Memory
  /-- Known bytes of the glyph memory (glossary, R93, R95). -/
  cgram : Memory
  deriving DecidableEq, Repr, Inhabited

/-- What is known of the panel. `unknown`, `functionSet` and `displaySet` are the stages of R119's "unknown
until the initialization sequence has run", in the order that R117 mandates (log 11). -/
inductive Panel where
  /-- Nothing is known; the initialization sequence may make it known (R118, R119). -/
  | unknown
  /-- Unknown but for the function set latched with DL = 1. -/
  | functionSet (twoLines bigFont : Bool)
  /-- Unknown but for the function set and the display control that followed it. -/
  | displaySet (twoLines bigFont display cursor blink : Bool)
  /-- The initialization sequence has run. -/
  | known (regs : PanelRegs)
  /-- A function set with DL = 0 was the last word latched: the panel has switched to 4-bit mode (R30, R92) with the
  lines and the font of that byte. Its interpretation of every later transfer is unknown (R116; log 12). -/
  | fourBit (twoLines bigFont : Bool)
  /-- No claim about the panel can be made any more: a transfer came after a switch to 4-bit mode (R116, U5), a reset
  cut a transfer short (R118, U4), the initialization was out of order (R117, U9), or the premise of R120 or the wait
  of R113 was not met (U8) (log 11, 12, 17, 18). -/
  | lost
  deriving DecidableEq, Repr, Inhabited

end Sys2Proof.Machine
end

