-- ==== Sys2Proof/Config.lean ====
section
/-! DEFINITION. What one instance of the hardware fixes: the parameters of `00_scope.md` R6, as a structure
that State carries (a model "takes the parameters below as arguments"; log 2), and the free values: constants
without a body for what the document does not state about the panel (`93_implementation_defined.md` Part 1). -/

namespace Sys2Proof

/-- R6 `DATA_W`: the data bus is 8 bits wide. -/
def Config.dataWidth : Nat := 8

/-- R6 `N_ROLES`: RS, EN and D0 to D7. -/
def Config.numRoles : Nat := 10

/-- The OPEN parameters of R6. No step changes them. -/
structure Params where
  /-- `CLK_HZ`. -/
  clkHz : Nat
  /-- `N_SU`: cycles of the low-before-pulse settle. -/
  nSu : Nat
  /-- `N_PW`: cycles EN is high. -/
  nPw : Nat
  /-- `N_POST`: cycles of the post-pulse settle. -/
  nPost : Nat
  /-- `N_LONG`: extra cycles after a clear or home instruction. -/
  nLong : Nat
  /-- `NUM_GPIO`: a pin identifier is valid iff it is below it. -/
  numGpio : Nat
  /-- `PIN_W`: width of a pin identifier. -/
  pinW : Nat
  /-- `CNT_W`: width of the phase counter. -/
  cntW : Nat
  /-- `POWERON_WAIT`, in clock edges from panel power-up (log 18). -/
  poweronWait : Nat
  deriving DecidableEq, Repr

/-- The reference values of R6, those of every vector in `95_test_vectors.md`; `CNT_W` is the least width that
R6 allows for them, and POWERON_WAIT "is taken as met" (log 2). -/
def Params.reference : Params :=
  { clkHz := 1000000, nSu := 2, nPw := 2, nPost := 100, nLong := 2000
    numGpio := 30, pinW := 5, cntW := 11, poweronWait := 0 }

namespace Config

/-- FREE VALUE (U6, U7, U10, U12; log 13): the panel's state after a bus word whose effect the document does
not state. -/
opaque freePanel : Nat → Machine.Panel

/-- FREE VALUE (log 14): the write direction of a panel whose initialization sequence has just run, which the document
does not state. -/
opaque freeDir : Nat → Machine.WriteDir

/-- FREE VALUE (log 14): the write direction that CLEAR_DISPLAY sets, or none if it leaves the direction. The document
does not state which; R38 and R74 only say that a second clear changes nothing, which both do. -/
opaque clearDir : Option Machine.WriteDir

/-- FREE VALUE (U10; log 13): the lines and the font of a panel after a function set with DL = 0, N = 1 and F = 1. -/
opaque freeMode : Nat → Bool × Bool

/-- FREE VALUE (log 14): the DDRAM address that the "home" of R85 and R86 stands for. -/
opaque homeAddr : BitVec 7

/-- FREE VALUE (log 15): the DDRAM address after a data write at the given address in the given direction. -/
opaque advanceDdram : Machine.WriteDir → BitVec 7 → BitVec 7

/-- FREE VALUE (log 15): the CGRAM address after a data write at the given address in the given direction. -/
opaque advanceCgram : Machine.WriteDir → BitVec 6 → BitVec 6

/-- FREE VALUE (U12; log 16): which DDRAM addresses the panel has beyond the ones the document names. -/
opaque ddramExists : BitVec 7 → Bool

/-- FREE VALUE (U3; log 20): the level of line number `r` (role order of R16) while the block does not drive
it, before the edge of the given index. -/
opaque undrivenLevel : Nat → Nat → Bool

end Config

end Sys2Proof
end

