-- ==== Sys2Proof/Syntax.lean ====
section
/-! DEFINITION. The instructions of `spec/opcode_table.json`, one constructor a row: the thirteen host command
words that the controller executes (R47) and the eleven panel bus words that the panel executes (R52); and the
pin assignment that INIT's ports carry. Operands are typed by R48 and R52 so that every value of the type is a
legal operand; raw words are checked in `WellFormed.lean` and `Decode.lean`. -/

namespace Sys2Proof

/-- The ten signal roles, in the role order of R16. -/
inductive Role where
  | rs | en | d0 | d1 | d2 | d3 | d4 | d5 | d6 | d7
  deriving DecidableEq, Repr

/-- The document's PinAssignment (R24): one pin identifier (R35) per role. -/
structure PinAssignment where
  rs : Nat
  en : Nat
  d0 : Nat
  d1 : Nat
  d2 : Nat
  d3 : Nat
  d4 : Nat
  d5 : Nat
  d6 : Nat
  d7 : Nat
  deriving DecidableEq, Repr

/-- The same pin identifier for every role. -/
def PinAssignment.every (p : Nat) : PinAssignment :=
  { rs := p, en := p, d0 := p, d1 := p, d2 := p, d3 := p, d4 := p, d5 := p, d6 := p, d7 := p }

/-- Instructions of both languages. -/
inductive Instr where
  /-- INIT (R69). -/
  | init
  /-- CMD b (R70). -/
  | cmd (b : Byte)
  /-- DATA b (R71). -/
  | data (b : Byte)
  /-- CLEAR (R74). -/
  | clear
  /-- HOME (R75). -/
  | home
  /-- SET_DIR: rightward or leftward (R76). -/
  | setDir (rightward : Bool)
  /-- SELECT_LINE n (R77). -/
  | selectLine (n : Byte)
  /-- SET_DISPLAY (R78). -/
  | setDisplay (on : Bool)
  /-- SET_CURSOR (R79). -/
  | setCursor (on : Bool)
  /-- SET_BLINK (R80). -/
  | setBlink (on : Bool)
  /-- SET_BITMODE: 8-bit or 4-bit (R81). -/
  | setBitMode (eight : Bool)
  /-- SET_LINES: two lines or one (R82). -/
  | setLines (two : Bool)
  /-- SET_FONT: 5x11 or 5x8 (R83). -/
  | setFont (big : Bool)
  /-- CLEAR_DISPLAY (R85). -/
  | clearDisplay
  /-- RETURN_HOME (R86). -/
  | returnHome
  /-- WRITE_LEFT (R87). -/
  | writeLeft
  /-- SHIFT_RIGHT (R90). -/
  | shiftRight
  /-- WRITE_RIGHT (R88). -/
  | writeRight
  /-- SHIFT_LEFT (R89). -/
  | shiftLeft
  /-- DISPLAY_CONTROL with D, C, B (R91). -/
  | displayControl (d c b : Bool)
  /-- FUNCTION_SET with DL, N, F (R92). -/
  | functionSet (dl n f : Bool)
  /-- SET_CGRAM with a 6-bit address (R93). -/
  | setCgram (a : BitVec 6)
  /-- SET_DDRAM with a 7-bit address (R94). -/
  | setDdram (a : BitVec 7)
  /-- DATA_WRITE b (R95). -/
  | dataWrite (b : Byte)
  deriving DecidableEq, Repr

/-- The host command words of R47, which the controller executes; the others are panel bus words. -/
def Instr.isHost : Instr → Bool
  | .init | .cmd _ | .data _ | .clear | .home | .setDir _ | .selectLine _ => true
  | .setDisplay _ | .setCursor _ | .setBlink _ | .setBitMode _ | .setLines _ | .setFont _ => true
  | .clearDisplay | .returnHome | .writeLeft | .shiftRight | .writeRight | .shiftLeft => false
  | .displayControl _ _ _ | .functionSet _ _ _ | .setCgram _ | .setDdram _ | .dataWrite _ => false

end Sys2Proof
end

