-- ==== Sys2Proof/WellFormed.lean ====
section
/-! DEFINITION. The checks on raw data. Every term of `Instr` is a legal instruction (R48, R52: the operand
types hold the legal operands and nothing else), so what is checked is what the outside can get wrong: the
parameters (R6), a raw host word (R49), a raw panel bus word (R54), and the pin identifiers on `cfg_pin`
(R16, R35). -/

namespace Sys2Proof

/-- The constraints that R6 puts on the parameters. `N / CLK_HZ ≥ 2 µs` is written without division. -/
def Params.ok (p : Params) : Bool :=
  decide (0 < p.clkHz)
    && decide (1 ≤ p.nSu) && decide (2 * p.clkHz ≤ p.nSu * 1000000)
    && decide (1 ≤ p.nPw) && decide (2 * p.clkHz ≤ p.nPw * 1000000)
    && decide (1 ≤ p.nPost) && decide (100 * p.clkHz ≤ p.nPost * 1000000)
    && decide (1 ≤ p.nLong) && decide (2 * p.clkHz ≤ p.nLong * 1000)
    && decide (10 ≤ p.numGpio) && decide (p.numGpio ≤ 2 ^ p.pinW)
    && decide (max (max p.nSu p.nPw) (max p.nPost p.nLong) < 2 ^ p.cntW)

/-- R49, clause 1: OP is reserved. -/
def opReserved (w : HostWord) : Bool :=
  let op := w.extractLsb' 8 4
  op == 0x0#4 || op == 0xE#4 || op == 0xF#4

/-- R49, clause 2: an instruction without operand has a nonzero ARG. -/
def argNotNone (w : HostWord) : Bool :=
  let op := w.extractLsb' 8 4
  (op == 0x1#4 || op == 0x4#4 || op == 0x5#4) && w.extractLsb' 0 8 != 0#8

/-- R49, clause 3: an instruction with a bool operand has a nonzero ARG[7:1]. -/
def argNotBool (w : HostWord) : Bool :=
  let op := w.extractLsb' 8 4
  (op == 0x6#4 || op == 0x8#4 || op == 0x9#4 || op == 0xA#4 || op == 0xB#4 || op == 0xC#4 || op == 0xD#4)
    && w.extractLsb' 1 7 != 0#7

/-- A legal host command word: none of R49's clauses holds. -/
def hostWordLegal (w : HostWord) : Bool :=
  !opReserved w && !argNotNone w && !argNotBool w

/-- R54: the bytes that match no panel format when sent with RS = 0. -/
def byteUnnamed (b : Byte) : Bool :=
  b == 0x00#8 || b == 0x03#8 || b.extractLsb' 4 4 == 0x1#4
    || (b.extractLsb' 5 3 == 0b001#3 && b.extractLsb' 0 2 != 0#2)

/-- A bus word that matches a format of R52: every data word, and every named instruction byte. -/
def busWordNamed (w : BusWord) : Bool :=
  w.getLsbD 8 || !byteUnnamed (w.extractLsb' 0 8)

/-- The pin identifiers of an assignment, in role order (R16). -/
def PinAssignment.toList (p : PinAssignment) : List Nat :=
  [p.rs, p.en, p.d0, p.d1, p.d2, p.d3, p.d4, p.d5, p.d6, p.d7]

/-- Every identifier fits the `PIN_W` wires of its `cfg_pin` port (R16). -/
def PinAssignment.fits (pinW : Nat) (p : PinAssignment) : Bool :=
  p.toList.all fun x => decide (x < 2 ^ pinW)

end Sys2Proof
end

