-- ==== Sys2Proof/Decode.lean ====
section
/-! DEFINITION. The decoders and the encoder of the two encoded languages: the host command word (R46 to R50)
and the panel bus word (R51 to R54). Each decoder is total on its words and rejects by name. The encoder is
written from the same tables (the opcode map of R47, the formats of R52). -/

namespace Sys2Proof

/-- A raw word with the language it belongs to. The two are told apart by where they stand (the command port,
the ten lines), never by their bits (R46, R51). -/
inductive Code where
  /-- A word on the command port. -/
  | host (w : HostWord)
  /-- A word on the panel bus. -/
  | panel (w : BusWord)
  deriving DecidableEq, Repr

/-- Why a word is no instruction. -/
inductive Reject where
  /-- R49, clause 1. -/
  | reservedOpcode
  /-- R49, clause 2: a nonzero ARG where there is no operand. -/
  | nonzeroArg
  /-- R49, clause 3: nonzero reserved argument bits. -/
  | reservedArgBits
  /-- R54: an instruction byte that the source does not name. -/
  | unnamedByte
  deriving DecidableEq, Repr

/-- What a decoder answers: `Illegal | (op, arg)` of R50. -/
inductive Decoded where
  | instr (i : Instr)
  | illegal (r : Reject)
  deriving DecidableEq, Repr

/-- The instruction, if there is one. -/
def Decoded.toOption : Decoded → Option Instr
  | .instr i => some i
  | .illegal _ => none

/-- ARG form *none* (R48): ARG must be 0x00. -/
def argNone (arg : Byte) (i : Instr) : Decoded :=
  if arg = 0x00#8 then .instr i else .illegal .nonzeroArg

/-- ARG form *bool* (R48): ARG[0] is the operand, ARG[7:1] must be 0. -/
def argBool (arg : Byte) (mk : Bool → Instr) : Decoded :=
  if arg.extractLsb' 1 7 = 0#7 then .instr (mk (arg.getLsbD 0)) else .illegal .reservedArgBits

/-- `Decode(W)` of R50 over the opcode map of R47. -/
def decodeHost (w : HostWord) : Decoded :=
  let arg : Byte := w.extractLsb' 0 8
  match (w.extractLsb' 8 4).toNat with
  | 0x1 => argNone arg .init
  | 0x2 => .instr (.cmd arg)
  | 0x3 => .instr (.data arg)
  | 0x4 => argNone arg .clear
  | 0x5 => argNone arg .home
  | 0x6 => argBool arg .setDir
  | 0x7 => .instr (.selectLine arg)
  | 0x8 => argBool arg .setDisplay
  | 0x9 => argBool arg .setCursor
  | 0xA => argBool arg .setBlink
  | 0xB => argBool arg .setBitMode
  | 0xC => argBool arg .setLines
  | 0xD => argBool arg .setFont
  | _ => .illegal .reservedOpcode

/-- An instruction byte (RS = 0), classified by its highest set bit (R54). -/
def decodeInstrByte (b : Byte) : Decoded :=
  if b.getLsbD 7 then .instr (.setDdram (b.extractLsb' 0 7))
  else if b.getLsbD 6 then .instr (.setCgram (b.extractLsb' 0 6))
  else if b.getLsbD 5 then
    if b.extractLsb' 0 2 = 0#2 then .instr (.functionSet (b.getLsbD 4) (b.getLsbD 3) (b.getLsbD 2))
    else .illegal .unnamedByte
  else if b.getLsbD 4 then .illegal .unnamedByte
  else if b.getLsbD 3 then .instr (.displayControl (b.getLsbD 2) (b.getLsbD 1) (b.getLsbD 0))
  else match (b.extractLsb' 0 3).toNat with
    | 1 => .instr .clearDisplay
    | 2 => .instr .returnHome
    | 4 => .instr .writeLeft
    | 5 => .instr .shiftRight
    | 6 => .instr .writeRight
    | 7 => .instr .shiftLeft
    | _ => .illegal .unnamedByte

/-- A panel bus word: its interpretation is determined by RS (R51). -/
def decodePanel (w : BusWord) : Decoded :=
  if w.getLsbD 8 then .instr (.dataWrite (w.extractLsb' 0 8)) else decodeInstrByte (w.extractLsb' 0 8)

/-- The decoder of a word in its language. -/
def decode : Code → Decoded
  | .host w => decodeHost w
  | .panel w => decodePanel w

/-- `{OP, ARG}` (R46). -/
def hostWord (op : BitVec 4) (arg : Byte) : HostWord := op ++ arg

/-- A bool operand as ARG (R11, R48). -/
def boolArg (v : Bool) : Byte := 0#7 ++ BitVec.ofBool v

/-- `{RS, D}` (R51). -/
def busWord (rs : Bool) (d : Byte) : BusWord := BitVec.ofBool rs ++ d

/-- The DISPLAY_CONTROL byte: base 0x08 with D, C, B (R52). -/
def displayControlByte (d c b : Bool) : Byte :=
  0b00001#5 ++ BitVec.ofBool d ++ BitVec.ofBool c ++ BitVec.ofBool b

/-- The FUNCTION_SET byte: base 0x20 with DL, N, F and D1:D0 = 0 (R52). -/
def functionSetByte (dl n f : Bool) : Byte :=
  0b001#3 ++ BitVec.ofBool dl ++ BitVec.ofBool n ++ BitVec.ofBool f ++ 0b00#2

/-- The SET_CGRAM byte (R52). -/
def setCgramByte (a : BitVec 6) : Byte := 0b01#2 ++ a

/-- The SET_DDRAM byte (R52). -/
def setDdramByte (a : BitVec 7) : Byte := 0b1#1 ++ a

/-- The encoding of an instruction, from the opcode map of R47 and the formats of R52. -/
def encode : Instr → Code
  | .init => .host (hostWord 0x1#4 0x00#8)
  | .cmd b => .host (hostWord 0x2#4 b)
  | .data b => .host (hostWord 0x3#4 b)
  | .clear => .host (hostWord 0x4#4 0x00#8)
  | .home => .host (hostWord 0x5#4 0x00#8)
  | .setDir v => .host (hostWord 0x6#4 (boolArg v))
  | .selectLine n => .host (hostWord 0x7#4 n)
  | .setDisplay v => .host (hostWord 0x8#4 (boolArg v))
  | .setCursor v => .host (hostWord 0x9#4 (boolArg v))
  | .setBlink v => .host (hostWord 0xA#4 (boolArg v))
  | .setBitMode v => .host (hostWord 0xB#4 (boolArg v))
  | .setLines v => .host (hostWord 0xC#4 (boolArg v))
  | .setFont v => .host (hostWord 0xD#4 (boolArg v))
  | .clearDisplay => .panel (busWord false 0x01#8)
  | .returnHome => .panel (busWord false 0x02#8)
  | .writeLeft => .panel (busWord false 0x04#8)
  | .shiftRight => .panel (busWord false 0x05#8)
  | .writeRight => .panel (busWord false 0x06#8)
  | .shiftLeft => .panel (busWord false 0x07#8)
  | .displayControl d c b => .panel (busWord false (displayControlByte d c b))
  | .functionSet dl n f => .panel (busWord false (functionSetByte dl n f))
  | .setCgram a => .panel (busWord false (setCgramByte a))
  | .setDdram a => .panel (busWord false (setDdramByte a))
  | .dataWrite b => .panel (busWord true b)

/-- The word that a number of `spec/opcode_table.json` stands for. The table numbers both languages from 0, so
the number alone does not say which is meant: a number of fewer than 10 bits is a bus word; otherwise a legal
host word is read as one, and what is left below 0x200 is a bus word. The only number that stands for two
instructions is 0x100 (INIT, and DATA_WRITE of 0x00): it is read as INIT (log 6). -/
def codeOfTable (nbits w : Nat) : Option Code :=
  if nbits < 10 ∧ w < 512 then some (.panel (BitVec.ofNat 9 w))
  else if 4096 ≤ w then none
  else if hostWordLegal (BitVec.ofNat 12 w) then some (.host (BitVec.ofNat 12 w))
  else if w < 512 then some (.panel (BitVec.ofNat 9 w))
  else some (.host (BitVec.ofNat 12 w))

/-- The instruction that the decoder reads from a word of `spec/opcode_table.json`. -/
def decodeTableWord (nbits w : Nat) : Option Instr :=
  (codeOfTable nbits w).bind fun c => (decode c).toOption

end Sys2Proof
end

