-- ==== Sys2Proof/Machine/State.lean ====
section
/-! DEFINITION. The state of the machine as plain data: every element of `10_state.md`, the input ports with the
host's schedule for them (log 1), the parameters (log 2), what is known of the panel (R30), the trace of latch
events (R63), and two counters of the model's own (log 8, 21). -/

namespace Sys2Proof.Machine

/-- `life` (R18). -/
inductive Life where
  | uninit
  | ready
  | failed
  deriving DecidableEq, Repr

/-- `phase`, the position of the transfer sequencer (R19). -/
inductive Phase where
  | idle
  | setup
  | high
  | post
  | long
  deriving DecidableEq, Repr

/-- The writable bits of `CTRL` (R25); the rest of the register is hardwired (log 10). -/
structure CtrlReg where
  /-- D, bit 2. -/
  display : Bool
  /-- C, bit 1. -/
  cursor : Bool
  /-- B, bit 0. -/
  blink : Bool
  deriving DecidableEq, Repr

/-- The writable bits of `MODE` (R26); the rest of the register is hardwired (log 10). -/
structure ModeReg where
  /-- DL, bit 4. -/
  eight : Bool
  /-- N, bit 3. -/
  twoLines : Bool
  /-- F, bit 2. -/
  bigFont : Bool
  deriving DecidableEq, Repr

/-- The four errors of R96. -/
inductive Err where
  | cfg
  | notInit
  | reinit
  | illegal
  deriving DecidableEq, Repr

/-- The levels on the input ports before a clock edge (R16). -/
structure Ports where
  rst : Bool
  reqValid : Bool
  reqWord : HostWord
  /-- What the host presents; the port has `PIN_W` wires for each role (R16), so the block sees `State.cfgPins`
  (`Operands.lean`; log 9). -/
  cfgPin : PinAssignment
  deriving DecidableEq, Repr

/-- A host that asserts no reset and offers no request; what the other ports carry is then not read (U18, U19;
log 1, 4). -/
def Ports.quiet : Ports :=
  { rst := false, reqValid := false, reqWord := 0x000#12, cfgPin := PinAssignment.every 0 }

/-- A latch event `Latch(rs, b)` with the index of its edge (R63). -/
structure LatchEvent where
  edge : Nat
  rs : Bool
  byte : Byte
  deriving DecidableEq, Repr

/-- Reasons to stop with a fault. There is none: the spec gives every edge from every state a next state, an
error is recorded in STATUS and the block goes on (R97, R67, R103; log 25). -/
inductive Fault where
  deriving DecidableEq, Repr

/-- Reasons to refuse. -/
inductive Refusal where
  /-- Raised by an arm of `exec` that has no meaning yet; no arm is left without one, so nothing raises it.
  It would be safe: the machine stops where the hardware goes on. -/
  | notModelled (mnemonic : String)
  deriving DecidableEq, Repr

/-- The whole state. -/
structure State where
  /-- The implementation parameters of R6; no step changes them (log 2). -/
  params : Params
  /-- The input ports before the next edge (R16). -/
  ports : Ports
  /-- What the host drives before the edges after that, first first (R5; log 1). -/
  sched : List Ports
  /-- The index of the next edge (R63; log 8). -/
  edge : Nat
  /-- `life` (R18). -/
  life : Life
  /-- `phase` (R19). -/
  phase : Phase
  /-- `cnt`, cycles left in the current phase (R20; log 9). -/
  cnt : Nat
  /-- `xfer_long` (R21). -/
  xferLong : Bool
  /-- `RS_q` (R22). -/
  rsQ : Bool
  /-- `EN_q` (R22). -/
  enQ : Bool
  /-- `D_q` (R22). -/
  dQ : Byte
  /-- `PINMAP` (R24). -/
  pinmap : PinAssignment
  /-- `CTRL` (R25). -/
  ctrl : CtrlReg
  /-- `MODE` (R26). -/
  mode : ModeReg
  /-- `STATUS[2]`, ERR_CFG (R27). -/
  errCfg : Bool
  /-- `STATUS[3]`, ERR_NOTINIT (R27). -/
  errNotInit : Bool
  /-- `STATUS[4]`, ERR_REINIT (R27). -/
  errReinit : Bool
  /-- `STATUS[5]`, ERR_ILLEGAL (R27). -/
  errIllegal : Bool
  /-- The latch events so far, in order (R63). -/
  trace : List LatchEvent
  /-- What is known of the panel (R30). -/
  panel : Panel
  /-- The counter that picks the panel's free values (log 21). -/
  free : Nat
  deriving DecidableEq, Repr

/-- The machine right after reset (R111). `PINMAP`, which reset leaves unspecified, is zero (log 3); the
parameters are the reference values (log 2); the host is quiet (log 1, 4); nothing is known of the panel
(R119). -/
def State.reset : State :=
  { params := Params.reference
    ports := Ports.quiet
    sched := []
    edge := 0
    life := .uninit
    phase := .idle
    cnt := 0
    xferLong := false
    rsQ := false
    enQ := false
    dQ := 0x00#8
    pinmap := PinAssignment.every 0
    ctrl := { display := false, cursor := false, blink := false }
    mode := { eight := true, twoLines := false, bigFont := false }
    errCfg := false
    errNotInit := false
    errReinit := false
    errIllegal := false
    trace := []
    panel := .unknown
    free := 0 }

end Sys2Proof.Machine
end

