-- ==== Sys2Proof/Machine/Flags.lean ====
section
/-! DEFINITION. The registers made of flags: `CTRL` and `MODE` with their hardwired bits (R25, R26), the flag
update of R72, and the status word of R27. -/

namespace Sys2Proof.Machine

/-- `SetField(R, m, v)` of R72. -/
def setField (r m : Byte) (v : Bool) : Byte :=
  if v then r ||| m else r &&& ~~~m

/-- The byte that `CTRL` presents: BASE, D, C, B (R25). -/
def CtrlReg.byte (c : CtrlReg) : Byte := displayControlByte c.display c.cursor c.blink

/-- What a write of a byte leaves in `CTRL`: bits 7:3 are hardwired (R25). -/
def CtrlReg.ofByte (v : Byte) : CtrlReg :=
  { display := v.getLsbD 2, cursor := v.getLsbD 1, blink := v.getLsbD 0 }

/-- The byte that `MODE` presents: BASE, DL, N, F, 00 (R26). -/
def ModeReg.byte (m : ModeReg) : Byte := functionSetByte m.eight m.twoLines m.bigFont

/-- What a write of a byte leaves in `MODE`: bits 7:5 and 1:0 are hardwired (R26). -/
def ModeReg.ofByte (v : Byte) : ModeReg :=
  { eight := v.getLsbD 4, twoLines := v.getLsbD 3, bigFont := v.getLsbD 2 }

/-- A read of `CTRL`, the port `ctrl_q` (R16, R25). -/
def State.ctrlQ (s : State) : Byte := s.ctrl.byte

/-- A read of `MODE`, the port `mode_q` (R16, R26). -/
def State.modeQ (s : State) : Byte := s.mode.byte

/-- A write of `CTRL` (R25). -/
def State.writeCtrl (s : State) (v : Byte) : State := { s with ctrl := CtrlReg.ofByte v }

/-- A write of `MODE` (R26). -/
def State.writeMode (s : State) (v : Byte) : State := { s with mode := ModeReg.ofByte v }

/-- The code of an error: the position of its STATUS bit (R96). -/
def Err.code : Err → Nat
  | .cfg => 2
  | .notInit => 3
  | .reinit => 4
  | .illegal => 5

/-- The sticky bit of an error (R27). -/
def State.errBit (s : State) : Err → Bool
  | .cfg => s.errCfg
  | .notInit => s.errNotInit
  | .reinit => s.errReinit
  | .illegal => s.errIllegal

/-- `STATUS`, the port `status_q` (R27). -/
def State.status (s : State) : Byte :=
  0b00#2 ++ BitVec.ofBool s.errIllegal ++ BitVec.ofBool s.errReinit ++ BitVec.ofBool s.errNotInit
    ++ BitVec.ofBool s.errCfg ++ BitVec.ofBool (decide (s.phase ≠ .idle)) ++ BitVec.ofBool (decide (s.life = .ready))

end Sys2Proof.Machine
end

