-- ==== Sys2Proof/Machine/Operands.lean ====
section
/-! DEFINITION. The operand forms: what an argument selects (R66, R76, R77), the validity of a pin assignment
(R68), the pin and the level of a role (R16, R22, R28), and the bus word on the lines (R51). -/

namespace Sys2Proof.Machine

/-- `IsLongCmd(b)` of R66: 0x01, 0x02 and 0x03. -/
def isLongCmd (b : Byte) : Bool :=
  b.extractLsb' 2 6 == 0#6 && b.extractLsb' 0 2 != 0#2

/-- The entry-mode byte that SET_DIR sends (R76). -/
def directionByte (rightward : Bool) : Byte := if rightward then 0x06#8 else 0x04#8

/-- `base(n)` of R53: the DDRAM base address of line `n`, for the two lines there are (R77). -/
def lineBase (n : Byte) : Option (BitVec 7) :=
  if n = 1#8 then some 0x00#7 else if n = 2#8 then some 0x40#7 else none

/-- No two entries are equal. -/
def distinct : List Nat → Bool
  | [] => true
  | x :: r => !r.contains x && distinct r

/-- `PinsValid` of R68. -/
def pinsValid (numGpio : Nat) (p : PinAssignment) : Bool :=
  p.toList.all (fun x => decide (x < numGpio)) && distinct p.toList

/-- What `PIN_W` wires a role carry of an assignment (R16): the low `PIN_W` bits of each identifier (log 9). -/
def onWires (pinW : Nat) (p : PinAssignment) : PinAssignment :=
  { rs := p.rs % 2 ^ pinW
    en := p.en % 2 ^ pinW
    d0 := p.d0 % 2 ^ pinW
    d1 := p.d1 % 2 ^ pinW
    d2 := p.d2 % 2 ^ pinW
    d3 := p.d3 % 2 ^ pinW
    d4 := p.d4 % 2 ^ pinW
    d5 := p.d5 % 2 ^ pinW
    d6 := p.d6 % 2 ^ pinW
    d7 := p.d7 % 2 ^ pinW }

/-- The assignment on the `cfg_pin` ports (R16). -/
def State.cfgPins (s : State) : PinAssignment := onWires s.params.pinW s.ports.cfgPin

/-- The pin identifier of a role (R24). -/
def pinOf (p : PinAssignment) : Role → Nat
  | .rs => p.rs
  | .en => p.en
  | .d0 => p.d0
  | .d1 => p.d1
  | .d2 => p.d2
  | .d3 => p.d3
  | .d4 => p.d4
  | .d5 => p.d5
  | .d6 => p.d6
  | .d7 => p.d7

/-- The level of a role (R28): `RS_q`, `EN_q`, and bit *i* of `D_q` on line D*i* (R36). -/
def State.roleLevel (s : State) : Role → Bool
  | .rs => s.rsQ
  | .en => s.enQ
  | .d0 => s.dQ.getLsbD 0
  | .d1 => s.dQ.getLsbD 1
  | .d2 => s.dQ.getLsbD 2
  | .d3 => s.dQ.getLsbD 3
  | .d4 => s.dQ.getLsbD 4
  | .d5 => s.dQ.getLsbD 5
  | .d6 => s.dQ.getLsbD 6
  | .d7 => s.dQ.getLsbD 7

/-- The roles in role order (R16). -/
def Role.list : List Role := [.rs, .en, .d0, .d1, .d2, .d3, .d4, .d5, .d6, .d7]

/-- The bus word on the lines (R51). -/
def State.busWord (s : State) : BusWord := Sys2Proof.busWord s.rsQ s.dQ

/-- `N(phase)` of R20; IDLE has no length. -/
def phaseLength (p : Params) : Phase → Nat
  | .idle => 0
  | .setup => p.nSu
  | .high => p.nPw
  | .post => p.nPost
  | .long => p.nLong

end Sys2Proof.Machine
end

