-- ==== Sys2Proof/Machine/Ops.lean ====
section
/-! DEFINITION. The shared operations: recording an error, which is all that taking an exception is on this
block (R97, R102), and reset, the only return from one (R103, R110); the start of a transfer (R61); the latch
event (R63); and the known bytes of the panel's memories. -/

namespace Sys2Proof.Machine

/-- What a step or a meaning answers. -/
abbrev Result := Host.Outcome State Fault Refusal

/-- Applies a function to the next state, if there is one. -/
def mapNext (f : State → State) : Result → Result
  | .next s => .next (f s)
  | .fault r => .fault r
  | .refused r => .refused r

/-- `raise E` of R97: sets the sticky bit and has no other effect. There is no trap entry (R102). -/
def State.raise (s : State) : Err → State
  | .cfg => { s with errCfg := true }
  | .notInit => { s with errNotInit := true }
  | .reinit => { s with errReinit := true }
  | .illegal => { s with errIllegal := true }

/-- The lifecycle check of R59, the same for every request but INIT: it runs only when `life = READY`, and
raises ERR_NOTINIT otherwise (log 24). -/
def requireReady (act : State → State) (s : State) : Result :=
  if s.life = .ready then .next (act s) else .next (s.raise .notInit)

/-- `StartXfer(rs, b, long)` of R61. -/
def State.startXfer (s : State) (rs : Bool) (b : Byte) (long : Bool) : State :=
  { s with rsQ := rs, dQ := b, enQ := false, xferLong := long, phase := .setup, cnt := s.params.nSu }

/-- What is known of the panel once its lines are no longer driven: nothing until the initialization sequence has run
(R119; log 17), and nothing ever again of one in 4-bit mode (R116; log 12). -/
def Panel.undriven : Panel → Panel
  | .fourBit _ _ | .lost => .lost
  | .unknown | .functionSet _ _ | .displaySet _ _ _ _ _ | .known _ => .unknown

/-- What a reset edge leaves of the panel: one that cuts a transfer short leaves an undefined latch state, of which no
further claim can be made (R43, R63, R118, U4); any other leaves the lines undriven (log 17). -/
def Panel.atReset (ph : Phase) (p : Panel) : Panel := if ph = .idle then p.undriven else .lost

/-- `Reset()` of R110, with what R118 and R119 say of the panel. `PINMAP` is not written. -/
def State.doReset (s : State) : State :=
  { s with
    life := .uninit
    phase := .idle
    cnt := 0
    xferLong := false
    rsQ := false
    enQ := false
    dQ := 0x00#8
    ctrl := CtrlReg.ofByte 0x08#8
    mode := ModeReg.ofByte 0x30#8
    errCfg := false
    errNotInit := false
    errReinit := false
    errIllegal := false
    panel := s.panel.atReset s.phase }

/-- The premise on which every claim about the panel rests: the counts meet R6 (R120), and POWERON_WAIT has
passed before the transfer that now latches began (R113; log 18). -/
def State.panelPremise (s : State) : Bool :=
  s.params.ok && decide (s.params.poweronWait ≤ s.edge - (s.params.nSu + s.params.nPw))

/-- What an effect makes of the panel: once the panel is in 4-bit mode or lost, its interpretation of a transfer is
unknown (R116, U5; log 12). -/
def Panel.latched (effect : Panel → Panel) : Panel → Panel
  | .fourBit _ _ | .lost => .lost
  | p => effect p

/-- The panel latches a bus word at this edge (R63): the event joins the trace, and the panel changes as
`effect` says, which is given a fresh number for its free values (log 21). -/
def State.latch (s : State) (w : BusWord) (effect : Nat → Panel → Panel) : State :=
  { s with
    trace := s.trace ++ [{ edge := s.edge, rs := w.getLsbD 8, byte := w.extractLsb' 0 8 }]
    panel := if s.panelPremise then s.panel.latched (effect s.free) else .lost
    free := s.free + 1 }

/-- The known byte at an address. -/
def Memory.read : Memory → Nat → Option Byte
  | [], _ => none
  | c :: r, a => if c.1 = a then some c.2 else Memory.read r a

/-- The memory with a byte known to stand at an address. -/
def Memory.write : Memory → Nat → Byte → Memory
  | [], a, b => [(a, b)]
  | c :: r, a, b =>
    if a < c.1 then (a, b) :: c :: r
    else if a = c.1 then (a, b) :: r
    else c :: Memory.write r a b

/-- The canonical form: strictly rising addresses. An unlisted address reads as no known byte, so no entry can
equal what it would read as unlisted. -/
def Memory.wf : Memory → Bool
  | [] => true
  | [_] => true
  | c :: d :: r => decide (c.1 < d.1) && Memory.wf (d :: r)

end Sys2Proof.Machine
end

