-- ==== Sys2Proof/Machine/BusDriver.lean ====
section
/-! DEFINITION. The Bus Driver operations of `40_bus_engine.md` section 3: INIT, CMD and DATA. -/

namespace Sys2Proof.Machine

/-- INIT (R69). The pin assignment is what `cfg_pin` carries at the accept edge. -/
def execInit (s : State) : Result :=
  if s.life ≠ .uninit then .next (s.raise .reinit)
  else if pinsValid s.params.numGpio s.cfgPins then
    .next { s with pinmap := s.cfgPins, rsQ := false, enQ := false, dQ := 0x00#8, life := .ready }
  else .next ({ s with life := .failed }.raise .cfg)

/-- CMD (R70): one instruction transfer of the byte; `CTRL` and `MODE` keep their values. -/
def execCmd (b : Byte) (s : State) : Result :=
  requireReady (fun s => s.startXfer false b (isLongCmd b)) s

/-- DATA (R71): one data transfer of the byte, never long. -/
def execData (b : Byte) (s : State) : Result :=
  requireReady (fun s => s.startXfer true b false) s

end Sys2Proof.Machine
end

