-- ==== Sys2Proof/Machine/CommandLayer.lean ====
section
/-! DEFINITION. The Command Layer operations of `41_command_layer.md`: CLEAR, HOME, SET_DIR, SELECT_LINE, the
three ControlFlags operations and the three ModeFlags operations. -/

namespace Sys2Proof.Machine

/-- Updates one flag of `CTRL` and sends the whole register (R73, R78 to R80). -/
def State.sendCtrl (s : State) (mask : Byte) (v : Bool) : State :=
  let c := setField s.ctrlQ mask v
  (s.writeCtrl c).startXfer false c false

/-- Updates one flag of `MODE` and sends the whole register (R73, R81 to R83). -/
def State.sendMode (s : State) (mask : Byte) (v : Bool) : State :=
  let m := setField s.modeQ mask v
  (s.writeMode m).startXfer false m false

/-- CLEAR (R74): CLEAR_DISPLAY, a long transfer. -/
def execClear (s : State) : Result :=
  requireReady (fun s => s.startXfer false 0x01#8 true) s

/-- HOME (R75): RETURN_HOME, a long transfer (`90_conflicts.md` C2). -/
def execHome (s : State) : Result :=
  requireReady (fun s => s.startXfer false 0x02#8 true) s

/-- SET_DIR (R76): WRITE_RIGHT or WRITE_LEFT. The direction is not stored in the block. -/
def execSetDir (rightward : Bool) (s : State) : Result :=
  requireReady (fun s => s.startXfer false (directionByte rightward) false) s

/-- SELECT_LINE (R77): SET_DDRAM with the base of line 1 or 2; any other line is an explicit no-op. -/
def execSelectLine (n : Byte) (s : State) : Result :=
  requireReady (fun s =>
    match lineBase n with
    | some a => s.startXfer false (setDdramByte a) false
    | none => s) s

/-- SET_DISPLAY (R78). -/
def execSetDisplay (on : Bool) (s : State) : Result :=
  requireReady (fun s => s.sendCtrl 0x04#8 on) s

/-- SET_CURSOR (R79). -/
def execSetCursor (on : Bool) (s : State) : Result :=
  requireReady (fun s => s.sendCtrl 0x02#8 on) s

/-- SET_BLINK (R80). -/
def execSetBlink (on : Bool) (s : State) : Result :=
  requireReady (fun s => s.sendCtrl 0x01#8 on) s

/-- SET_BITMODE (R81). The block's own transfers stay 8-bit whatever `MODE[4]` holds. -/
def execSetBitMode (eight : Bool) (s : State) : Result :=
  requireReady (fun s => s.sendMode 0x10#8 eight) s

/-- SET_LINES (R82). -/
def execSetLines (two : Bool) (s : State) : Result :=
  requireReady (fun s => s.sendMode 0x08#8 two) s

/-- SET_FONT (R83). -/
def execSetFont (big : Bool) (s : State) : Result :=
  requireReady (fun s => s.sendMode 0x04#8 big) s

end Sys2Proof.Machine
end

