-- ==== Sys2Proof/Machine/Panel.lean ====
section
/-! DEFINITION. The panel instructions of `42_panel_instructions.md`, executed by the panel at the latch event
(R63; log 5). An effect is the document's where it states one, and keeps what it does not name (log 26). Where the
document states none the panel's state is a free value (log 13 to 16), or unknown until the initialization sequence has
run (R119; log 11), or lost (log 12). No effect is asked of a panel in 4-bit mode or lost: `Panel.latched` in
`Ops.lean` answers for those. -/

namespace Sys2Proof.Machine

/-- A free panel state (U6, U7, U10, U12; log 13). No byte of its memories is known. -/
def anyPanel (n : Nat) : Panel :=
  match Config.freePanel n with
  | .known r => .known { r with ddram := [], cgram := [] }
  | p => p

/-- An effect the document does not state: any value for the panel's state. A panel that is unknown stays so. -/
def Panel.unstated (n : Nat) : Panel → Panel
  | .unknown => .unknown
  | _ => anyPanel n

/-- R85: "cursor resets to home". It completes the initialization sequence (R114, R117). Before the function set
and the display control it is out of order, and nothing can be said of the panel any more (U9; log 11). The
display contents and the write direction afterwards are not stated (log 14); a second clear changes nothing (R38,
R74). -/
def Panel.onClearDisplay (n : Nat) : Panel → Panel
  | .displaySet l f d c b => .known
      { display := d, cursor := c, blink := b, twoLines := l, bigFont := f
        dir := Config.clearDir.getD (Config.freeDir n), addr := .ddram Config.homeAddr, ddram := [], cgram := [] }
  | .known r => .known { r with addr := .ddram Config.homeAddr, dir := Config.clearDir.getD r.dir, ddram := [] }
  | .unknown | .functionSet _ _ | .fourBit _ _ | .lost => .lost

/-- R86: "cursor only, display unchanged". -/
def Panel.onReturnHome : Panel → Panel
  | .known r => .known { r with addr := .ddram Config.homeAddr }
  | p => p

/-- R87, R88: sets the write direction. -/
def Panel.onSetDir (d : WriteDir) : Panel → Panel
  | .known r => .known { r with dir := d }
  | p => p

/-- R91: sets display, cursor and blink at once. Before any function set it is out of order (U9; log 11). -/
def Panel.onDisplayControl (d c b : Bool) : Panel → Panel
  | .functionSet l f => .displaySet l f d c b
  | .displaySet l f _ _ _ => .displaySet l f d c b
  | .known r => .known { r with display := d, cursor := c, blink := b }
  | .unknown | .fourBit _ _ | .lost => .lost

/-- R92: DL selects the 8-bit or the 4-bit interface, N the lines and F the font. With DL = 1 it begins an
initialization (R114, R116; log 11, 28). What a panel does with two lines and the large font is not stated (U10): its
state is any value, or its lines and font are where DL = 0 still switches it to 4-bit mode (log 13). -/
def Panel.onFunctionSet (n : Nat) (dl lines font : Bool) (p : Panel) : Panel :=
  if lines && font then
    if dl then p.unstated n else .fourBit (Config.freeMode n).1 (Config.freeMode n).2
  else if dl then .functionSet lines font
  else .fourBit lines font

/-- R93, R94: selects the current address. -/
def Panel.onSetAddr (a : PanelAddr) : Panel → Panel
  | .known r => .known { r with addr := a }
  | p => p

/-- The DDRAM addresses that the panel has: the line bases the document names, home, and whatever else the
panel has (U12; log 16). -/
def PanelRegs.hasDdram (r : PanelRegs) (a : BitVec 7) : Bool :=
  a == 0x00#7 || (r.twoLines && a == 0x40#7) || a == Config.homeAddr || Config.ddramExists a

/-- R95: writes the byte at the current address, which then advances in the write direction. That the panel has every
one of the 64 CGRAM addresses is the model's choice (DESIGN CHOICE, log 30); which DDRAM addresses it has is free (log
16). At a stage of the initialization the address is unknown, and the byte leaves the stage as it is (DEDUCED, log 11). -/
def Panel.onDataWrite (n : Nat) (b : Byte) : Panel → Panel
  | .known r =>
    match r.addr with
    | .ddram a =>
      if r.hasDdram a then
        .known { r with ddram := Memory.write r.ddram a.toNat b, addr := .ddram (Config.advanceDdram r.dir a) }
      else anyPanel n
    | .cgram a =>
      .known { r with cgram := Memory.write r.cgram a.toNat b, addr := .cgram (Config.advanceCgram r.dir a) }
  | p => p

/-- CLEAR_DISPLAY (R85). -/
def execClearDisplay (s : State) : Result :=
  .next (s.latch (busWord false 0x01#8) Panel.onClearDisplay)

/-- RETURN_HOME (R86). -/
def execReturnHome (s : State) : Result :=
  .next (s.latch (busWord false 0x02#8) fun _ => Panel.onReturnHome)

/-- WRITE_LEFT (R87). -/
def execWriteLeft (s : State) : Result :=
  .next (s.latch (busWord false 0x04#8) fun _ => Panel.onSetDir .left)

/-- SHIFT_RIGHT (R90): the document gives only the name and value (U7). -/
def execShiftRight (s : State) : Result :=
  .next (s.latch (busWord false 0x05#8) Panel.unstated)

/-- WRITE_RIGHT (R88). -/
def execWriteRight (s : State) : Result :=
  .next (s.latch (busWord false 0x06#8) fun _ => Panel.onSetDir .right)

/-- SHIFT_LEFT (R89): the document gives only the name and value (U7). -/
def execShiftLeft (s : State) : Result :=
  .next (s.latch (busWord false 0x07#8) Panel.unstated)

/-- DISPLAY_CONTROL (R91). -/
def execDisplayControl (d c b : Bool) (s : State) : Result :=
  .next (s.latch (busWord false (displayControlByte d c b)) fun _ => Panel.onDisplayControl d c b)

/-- FUNCTION_SET (R92). -/
def execFunctionSet (dl n f : Bool) (s : State) : Result :=
  .next (s.latch (busWord false (functionSetByte dl n f)) fun k => Panel.onFunctionSet k dl n f)

/-- SET_CGRAM (R93). -/
def execSetCgram (a : BitVec 6) (s : State) : Result :=
  .next (s.latch (busWord false (setCgramByte a)) fun _ => Panel.onSetAddr (.cgram a))

/-- SET_DDRAM (R94). -/
def execSetDdram (a : BitVec 7) (s : State) : Result :=
  .next (s.latch (busWord false (setDdramByte a)) fun _ => Panel.onSetAddr (.ddram a))

/-- DATA_WRITE (R95). -/
def execDataWrite (b : Byte) (s : State) : Result :=
  .next (s.latch (busWord true b) fun k => Panel.onDataWrite k b)

end Sys2Proof.Machine
end

