-- ==== Sys2Proof/Machine/Dispatch.lean ====
section
/-! DEFINITION. One arm per instruction: the dispatch of R59 for the host command words, and the panel's own for
the bus words it latches (R63). -/

namespace Sys2Proof.Machine

def exec (i : Instr) (s : State) : Host.Outcome State Fault Refusal :=
  match i with
  | .init => Sys2Proof.Machine.execInit s
  | .cmd b => Sys2Proof.Machine.execCmd b s
  | .data b => Sys2Proof.Machine.execData b s
  | .clear => Sys2Proof.Machine.execClear s
  | .home => Sys2Proof.Machine.execHome s
  | .setDir v => Sys2Proof.Machine.execSetDir v s
  | .selectLine n => Sys2Proof.Machine.execSelectLine n s
  | .setDisplay v => Sys2Proof.Machine.execSetDisplay v s
  | .setCursor v => Sys2Proof.Machine.execSetCursor v s
  | .setBlink v => Sys2Proof.Machine.execSetBlink v s
  | .setBitMode v => Sys2Proof.Machine.execSetBitMode v s
  | .setLines v => Sys2Proof.Machine.execSetLines v s
  | .setFont v => Sys2Proof.Machine.execSetFont v s
  | .clearDisplay => Sys2Proof.Machine.execClearDisplay s
  | .returnHome => Sys2Proof.Machine.execReturnHome s
  | .writeLeft => Sys2Proof.Machine.execWriteLeft s
  | .shiftRight => Sys2Proof.Machine.execShiftRight s
  | .writeRight => Sys2Proof.Machine.execWriteRight s
  | .shiftLeft => Sys2Proof.Machine.execShiftLeft s
  | .displayControl d c b => Sys2Proof.Machine.execDisplayControl d c b s
  | .functionSet dl n f => Sys2Proof.Machine.execFunctionSet dl n f s
  | .setCgram a => Sys2Proof.Machine.execSetCgram a s
  | .setDdram a => Sys2Proof.Machine.execSetDdram a s
  | .dataWrite b => Sys2Proof.Machine.execDataWrite b s

end Sys2Proof.Machine
end

