-- ==== Sys2Proof/Machine/Sequencer.lean ====
section
/-! DEFINITION. What a clock edge does (R58): reset, the acceptance and dispatch of a request (R17, R59), the
countdown and the advance of a running transfer (R62) with its latch event (R63). -/

namespace Sys2Proof.Machine

/-- `Dispatch(W)` of R59: an illegal word raises ERR_ILLEGAL; a legal one runs. -/
def dispatchWord (w : HostWord) (s : State) : Result :=
  match decodeHost w with
  | .instr i => exec i s
  | .illegal _ => .next (s.raise .illegal)

/-- The panel latches the bus word on the lines (R63): it runs the instruction the word names, and a byte the
source does not name has any effect (R54, U6; log 13). An unnamed byte of 0x20 to 0x2F is not read as a function set with
DL = 0 (DESIGN CHOICE, log 31). -/
def latchLines (s : State) : Result :=
  match decodePanel s.busWord with
  | .instr i => exec i s
  | .illegal _ => .next (s.latch s.busWord Panel.unstated)

/-- SETUP ends: the enable rises (R62). -/
def State.raiseEnable (s : State) : State :=
  { s with enQ := true, phase := .high, cnt := s.params.nPw }

/-- HIGH ends: the enable falls (R62). -/
def State.lowerEnable (s : State) : State :=
  { s with enQ := false, phase := .post, cnt := s.params.nPost }

/-- POST ends: RS returns to low, and the long wait follows or the transfer is over (R62). -/
def State.endPost (s : State) : State :=
  if s.xferLong then { s with rsQ := false, phase := .long, cnt := s.params.nLong }
  else { s with rsQ := false, phase := .idle }

/-- LONG ends: the transfer is over (R62). -/
def State.endLong (s : State) : State := { s with phase := .idle }

/-- `Advance()` of R62. IDLE has no end; R58 does not call it there. -/
def advance (s : State) : Result :=
  match s.phase with
  | .idle => .next s
  | .setup => .next s.raiseEnable
  | .high => mapNext State.lowerEnable (latchLines s)
  | .post => .next s.endPost
  | .long => .next s.endLong

/-- One cycle of a running transfer (R58). -/
def State.countDown (s : State) : State := { s with cnt := s.cnt - 1 }

/-- What the block does at a clock edge (R58). -/
def clockEdge (s : State) : Result :=
  if s.ports.rst then .next s.doReset
  else if s.phase = .idle then
    if s.ports.reqValid then dispatchWord s.ports.reqWord s else .next s
  else if 1 < s.cnt then .next s.countDown
  else advance s

/-- After the edge: the next edge has the next index, and the host drives what it has scheduled for it, or is
quiet (log 1, 8). -/
def State.afterEdge (s : State) : State :=
  { s with edge := s.edge + 1, ports := s.sched.headD Ports.quiet, sched := s.sched.tail }

/-- The pins 0 to 9 in role order: an assignment that is valid for every `NUM_GPIO` of R6. -/
def firstPins : PinAssignment :=
  { rs := 0, en := 1, d0 := 2, d1 := 3, d2 := 4, d3 := 5, d4 := 6, d5 := 7, d6 := 8, d7 := 9 }

/-- The host offers a word to an idle block, with no reset and a valid pin assignment on `cfg_pin`, as R113 has
it: the one that stands there if it is valid (log 7). -/
def State.offer (s : State) (w : HostWord) : State :=
  { s with
    phase := .idle
    ports :=
      { rst := false, reqValid := true, reqWord := w
        cfgPin := if pinsValid s.params.numGpio s.cfgPins then s.ports.cfgPin else firstPins } }

/-- The lines carry a bus word and the enable is about to fall (log 7). -/
def State.onLines (s : State) (w : BusWord) : State :=
  { s with
    phase := .high
    cnt := 1
    rsQ := w.getLsbD 8
    enQ := true
    dQ := w.extractLsb' 0 8
    ports := { s.ports with rst := false } }

end Sys2Proof.Machine
end

