-- ==== Sys2Proof/Machine/Step.lean ====
section
/-! DEFINITION. One step is one rising clock edge (R5, R58). -/

namespace Sys2Proof.Machine

/-- One clock edge, and the ports of the next one. -/
def step (s : State) : Host.Outcome State Fault Refusal := mapNext State.afterEdge (clockEdge s)

/-- The state in which the very next step runs the instruction of a word of `spec/opcode_table.json`: a host
word is offered on the command port, a bus word stands on the lines with the enable about to fall (log 7). -/
def State.withFetchWord (s : State) (nbits w : Nat) : State :=
  match codeOfTable nbits w with
  | some (.host h) => s.offer h
  | some (.panel b) => s.onLines b
  | none => s

end Sys2Proof.Machine
end

