-- ==== Sys2Proof/Machine/Assembler.lean ====
section
/-! DEFINITION. The host's side of the command port: the pseudo-instructions of R57, R84 and R114, and the
assembler syntax of R56, which turns one line of text into the words it emits. -/

namespace Sys2Proof.Machine

/-- The pseudo-instructions of R57. -/
inductive Pseudo where
  | sendInstruction (b : Byte)
  | sendDataByte (b : Byte)
  | writeChar (c : Byte)
  | writeString (s : List Byte)
  | lcdInitSequence
  deriving DecidableEq, Repr

/-- The newline byte (R84; PRESUMED 0x0A, log 22). -/
def newline : Byte := 0x0A#8

/-- What `write_string` issues for one element (R84). -/
def writeElement (e : Byte) : Instr :=
  if e = newline then .selectLine 2#8 else .data e

/-- The requests that a pseudo-instruction expands to, in order (R57, R84, R114). -/
def Pseudo.expand : Pseudo → List Instr
  | .sendInstruction b => [.cmd b]
  | .sendDataByte b => [.data b]
  | .writeChar c => [.data c]
  | .writeString s => s.map writeElement
  | .lcdInitSequence =>
    [.init, .setBitMode true, .setLines true, .setFont false, .setDisplay true, .setCursor true, .setBlink true,
      .clear]

/-- A space between tokens. -/
def isSpace (c : Char) : Bool := c == ' ' || c == '\t'

/-- Nothing follows but a comment (R56: `;` starts one). -/
def endOfLine (cs : List Char) : Bool :=
  match cs.dropWhile isSpace with
  | [] => true
  | c :: _ => c == ';'

/-- The next token and the text after it. -/
def nextToken (cs : List Char) : List Char × List Char :=
  (cs.dropWhile isSpace).span fun c => !isSpace c && c != ';'

/-- The value of a hexadecimal digit. -/
def digitValue (c : Char) : Option Nat :=
  if '0' ≤ c ∧ c ≤ '9' then some (c.toNat - 48)
  else if 'a' ≤ c ∧ c ≤ 'f' then some (c.toNat - 87)
  else if 'A' ≤ c ∧ c ≤ 'F' then some (c.toNat - 55)
  else none

/-- The value of digits in a base, after those already read. -/
def digitsValue (base : Nat) : List Char → Nat → Option Nat
  | [], n => some n
  | c :: r, n => (digitValue c).bind fun d => if d < base then digitsValue base r (base * n + d) else none

/-- A decimal or hexadecimal numeral (R56). Any number of digits is accepted, fewer than R56 writes and leading zeros
among them (DESIGN CHOICE, log 23). -/
def numeral : List Char → Option Nat
  | '0' :: 'x' :: c :: r => digitsValue 16 (c :: r) 0
  | [] => none
  | cs => digitsValue 10 cs 0

/-- The ASCII code of a character (R56; PRESUMED, log 22). -/
def asciiByte (c : Char) : Option Byte :=
  if c.toNat < 128 then some (BitVec.ofNat 8 c.toNat) else none

/-- An `imm8` operand: a numeral up to 255 or a character literal (R56). -/
def imm8 (cs : List Char) : Option Byte :=
  match cs.dropWhile isSpace with
  | '\'' :: c :: '\'' :: r => if endOfLine r then asciiByte c else none
  | r =>
    let t := nextToken r
    if endOfLine t.2 then (numeral t.1).bind fun n => if n < 256 then some (BitVec.ofNat 8 n) else none
    else none

/-- An operand that is one of two words, the first standing for 1 (R56). -/
def oneOf (yes no : String) (cs : List Char) : Option Bool :=
  let t := nextToken cs
  if endOfLine t.2 then
    if t.1 = yes.toList then some true else if t.1 = no.toList then some false else none
  else none

/-- No operand. -/
def noOperand (cs : List Char) (is : List Instr) : Option (List Instr) :=
  if endOfLine cs then some is else none

/-- The elements of a string operand up to its closing quote (R57, R84); `\n` stands for the newline byte. A backslash
before anything else makes the line refused, and a double quote always closes the string, so no string holds the byte
0x5C or 0x22; nor does one hold a byte from 0x80 up, since a character beyond ASCII makes the line refused (DESIGN CHOICE,
log 23). `Pseudo.writeString` itself takes every byte. -/
def stringBody : List Char → Option (List Byte)
  | [] => none
  | '"' :: r => if endOfLine r then some [] else none
  | '\\' :: 'n' :: r => (stringBody r).map fun bs => newline :: bs
  | '\\' :: _ => none
  | c :: r => (asciiByte c).bind fun b => (stringBody r).map fun bs => b :: bs

/-- A string operand. -/
def stringOperand (cs : List Char) : Option (List Byte) :=
  match cs.dropWhile isSpace with
  | '"' :: r => stringBody r
  | _ => none

/-- The mnemonics of R56 and the pseudo-instructions of R57, in capitals, with what each makes of its operand
text. -/
def syntaxTable : List (String × (List Char → Option (List Instr))) :=
  [ ("INIT", fun r => noOperand r [.init]),
    ("CMD", fun r => (imm8 r).map fun b => [.cmd b]),
    ("DATA", fun r => (imm8 r).map fun b => [.data b]),
    ("CLEAR", fun r => noOperand r [.clear]),
    ("HOME", fun r => noOperand r [.home]),
    ("SET_DIR", fun r => (oneOf "right" "left" r).map fun v => [.setDir v]),
    ("SELECT_LINE", fun r => (imm8 r).map fun b => [.selectLine b]),
    ("SET_DISPLAY", fun r => (oneOf "on" "off" r).map fun v => [.setDisplay v]),
    ("SET_CURSOR", fun r => (oneOf "on" "off" r).map fun v => [.setCursor v]),
    ("SET_BLINK", fun r => (oneOf "on" "off" r).map fun v => [.setBlink v]),
    ("SET_BITMODE", fun r => (oneOf "8" "4" r).map fun v => [.setBitMode v]),
    ("SET_LINES", fun r => (oneOf "2" "1" r).map fun v => [.setLines v]),
    ("SET_FONT", fun r => (oneOf "5x11" "5x8" r).map fun v => [.setFont v]),
    ("SEND_INSTRUCTION", fun r => (imm8 r).map fun b => (Pseudo.sendInstruction b).expand),
    ("SEND_DATA_BYTE", fun r => (imm8 r).map fun b => (Pseudo.sendDataByte b).expand),
    ("WRITE_CHAR", fun r => (imm8 r).map fun b => (Pseudo.writeChar b).expand),
    ("WRITE_STRING", fun r => (stringOperand r).map fun s => (Pseudo.writeString s).expand),
    ("LCD_INIT_SEQUENCE", fun r => noOperand r Pseudo.lcdInitSequence.expand) ]

/-- The host word of an instruction. -/
def hostWordOf (i : Instr) : Option HostWord :=
  match encode i with
  | .host w => some w
  | .panel _ => none

/-- The operand of `.word`: the 12-bit word, verbatim (R56). It is hexadecimal, with any number of digits (DESIGN CHOICE,
log 23). -/
def rawWord (cs : List Char) : Option (List HostWord) :=
  let t := nextToken cs
  if endOfLine t.2 then
    match t.1 with
    | '0' :: 'x' :: c :: r =>
      (digitsValue 16 (c :: r) 0).bind fun n => if n < 4096 then some [BitVec.ofNat 12 n] else none
    | _ => none
  else none

/-- The words that one line emits, or none where the assembler refuses it (R56). -/
def assembleLine (cs : List Char) : Option (List HostWord) :=
  if endOfLine cs then some []
  else
    let t := nextToken cs
    let m := t.1.map Char.toUpper
    if m = ".WORD".toList then rawWord t.2
    else
      match syntaxTable.find? fun e => e.1.toList == m with
      | some e => (e.2 t.2).bind fun is => is.mapM hostWordOf
      | none => none

end Sys2Proof.Machine
end

