-- ==== Sys2Proof/Machine/Outputs.lean ====
section
/-! DEFINITION. The output ports of R16, each a function of the state before the next edge. `status_q`, `ctrl_q`
and `mode_q` are `State.status`, `State.ctrlQ` and `State.modeQ` (`Flags.lean`). -/

namespace Sys2Proof.Machine

/-- `req_ready` (R17). -/
def State.reqReady (s : State) : Bool := decide (s.phase = .idle)

/-- `lcd_rs` (R22). -/
def State.lcdRs (s : State) : Bool := s.rsQ

/-- `lcd_en` (R22). -/
def State.lcdEn (s : State) : Bool := s.enQ

/-- `lcd_d` (R22). -/
def State.lcdD (s : State) : Byte := s.dQ

/-- `lcd_oe` (R23). -/
def State.lcdOe (s : State) : Bool := decide (s.life = .ready)

/-- `lcd_pue` (R23). -/
def State.lcdPue (s : State) : Bool := decide (s.life = .ready)

/-- Some role is mapped to pin `p` of the platform (R28). -/
def State.pinUsed (s : State) (p : Nat) : Bool :=
  decide (p < s.params.numGpio) && decide (s.life = .ready) && Role.list.any fun r => pinOf s.pinmap r == p

/-- `gpio_oe[p]` (R28). -/
def State.gpioOe (s : State) (p : Nat) : Bool := s.pinUsed p

/-- `gpio_pue[p]` (R28). -/
def State.gpioPue (s : State) (p : Nat) : Bool := s.pinUsed p

/-- `gpio_o[p]` (R28). -/
def State.gpioO (s : State) (p : Nat) : Bool :=
  s.pinUsed p && Role.list.any fun r => pinOf s.pinmap r == p && s.roleLevel r

/-- The role's number in the order of R16. -/
def Role.index : Role → Nat
  | .rs => 0
  | .en => 1
  | .d0 => 2
  | .d1 => 3
  | .d2 => 4
  | .d3 => 5
  | .d4 => 6
  | .d5 => 7
  | .d6 => 8
  | .d7 => 9

/-- The level the panel sees on a line: the block's while it drives the line (R23), the platform's otherwise
(R119, U3; log 20). -/
def State.lineSeen (s : State) (r : Role) : Bool :=
  if s.lcdOe then s.roleLevel r else Config.undrivenLevel s.edge (Role.index r)

end Sys2Proof.Machine
end

