-- ==== Sys2Proof/Safety.lean ====
section
/-! DEFINITION. The terms that claims use: runs of clock edges, the invariants of the machine (R29, R20, and the
model's own), a run without error (D9), and the duties of the host (R116, R118). -/

namespace Sys2Proof.Machine

/-- `k` clock edges. -/
def run : Nat → State → Result
  | 0, s => .next s
  | k + 1, s =>
    match step s with
    | .next t => run k t
    | .fault r => .fault r
    | .refused r => .refused r

/-- The levels the host drives before the coming edges, this one first. -/
def State.inputs (s : State) : List Ports := s.ports :: s.sched

/-- The host asserts no reset at the next `k` edges. -/
def State.noResetFor (s : State) (k : Nat) : Prop := ∀ q ∈ s.inputs.take k, q.rst = false

/-- R29, its six clauses. -/
structure State.LinesInv (s : State) : Prop where
  /-- R29.1. -/
  enable : s.enQ = true ↔ s.phase = .high
  /-- R29.2. -/
  idleLow : s.phase = .idle → s.rsQ = false ∧ s.enQ = false
  /-- R29.3. -/
  busyReady : s.phase ≠ .idle → s.life = .ready
  /-- R29.4. -/
  longLow : s.phase = .long → s.rsQ = false
  /-- R29.5. -/
  hardwired : s.ctrlQ.extractLsb' 3 5 = 0b00001#5 ∧ s.modeQ.extractLsb' 5 3 = 0b001#3
    ∧ s.modeQ.extractLsb' 0 2 = 0b00#2
  /-- R29.6. -/
  uninitLow : s.life = .uninit → s.rsQ = false ∧ s.enQ = false ∧ s.dQ = 0x00#8

/-- The panel's memories are in canonical form, within their address spaces (R33, R34). -/
def Panel.wf : Panel → Bool
  | .known r =>
    Memory.wf r.ddram && r.ddram.all (fun c => decide (c.1 < 128))
      && Memory.wf r.cgram && r.cgram.all (fun c => decide (c.1 < 64))
  | _ => true

/-- Nothing is claimed about the panel. -/
def Panel.blank (p : Panel) : Prop := p = .unknown ∨ p = .lost

/-- The invariant of the machine. -/
structure State.Inv (s : State) : Prop where
  /-- R29. -/
  lines : s.LinesInv
  /-- R20: the bounds of the counter. -/
  counter : s.phase ≠ .idle → 1 ≤ s.cnt ∧ s.cnt ≤ phaseLength s.params s.phase
  /-- R66: a data transfer is never long. -/
  longInstr : s.phase ≠ .idle → s.xferLong = true → s.rsQ = false
  /-- R6. -/
  paramsOk : s.params.ok = true
  /-- R24, R68: the assignment in force is valid. -/
  pins : s.life = .ready → pinsValid s.params.numGpio s.pinmap = true
  /-- R24: each entry of `PINMAP` is `PIN_W` bits wide. -/
  pinsFit : s.pinmap.fits s.params.pinW = true
  /-- R119: nothing is known of a panel whose lines are not driven. -/
  panelBlank : s.life ≠ .ready → s.panel.blank
  /-- The canonical form of the panel's memories. -/
  panelWf : s.panel.wf = true
  /-- R41, R63: the events are in the order of their edges, all of them past. -/
  traceOrder : s.trace.Pairwise (fun a b => a.edge < b.edge) ∧ ∀ e ∈ s.trace, e.edge < s.edge

/-- The request on the port is accepted at this edge (R17). -/
def State.accepts (s : State) : Prop := s.ports.rst = false ∧ s.phase = .idle ∧ s.ports.reqValid = true

/-- An INIT request is accepted at this edge while `life = UNINIT` (R18, R69). -/
def State.firstInit (s : State) : Prop := s.accepts ∧ s.ports.reqWord = 0x100#12 ∧ s.life = .uninit

/-- The error that the request accepted at this edge raises, in the priority of R98. -/
def raisedError (s : State) : Option Err :=
  match decodeHost s.ports.reqWord with
  | .illegal _ => some .illegal
  | .instr .init =>
    if s.life ≠ .uninit then some .reinit
    else if pinsValid s.params.numGpio s.cfgPins then none else some .cfg
  | .instr _ => if s.life ≠ .ready then some .notInit else none

/-- The cycles of a normal transfer (R122). -/
def normalCycles (p : Params) : Nat := p.nSu + p.nPw + p.nPost

/-- The busy cycles of the request on the port, by the table of R122. -/
def busyCycles (s : State) : Nat :=
  if s.life ≠ .ready then 0
  else match decodeHost s.ports.reqWord with
    | .illegal _ | .instr .init => 0
    | .instr (.selectLine n) => if n = 1#8 ∨ n = 2#8 then normalCycles s.params else 0
    | .instr .clear | .instr .home => normalCycles s.params + s.params.nLong
    | .instr (.cmd b) =>
      if b = 1#8 ∨ b = 2#8 ∨ b = 3#8 then normalCycles s.params + s.params.nLong else normalCycles s.params
    | .instr _ => normalCycles s.params

/-- The request that this edge executes: accepted, legal, and in the READY lifecycle (R17, R59). -/
def State.executes (s : State) : Option Instr :=
  if s.ports.rst = false ∧ s.phase = .idle ∧ s.ports.reqValid = true ∧ s.life = .ready then
    (decodeHost s.ports.reqWord).toOption
  else none

/-- The requests that `k` edges execute, in order. -/
def executed : Nat → State → List Instr
  | 0, _ => []
  | k + 1, s =>
    match step s with
    | .next t => s.executes.toList ++ executed k t
    | .fault _ | .refused _ => []

/-- Panel instructions executed one after the other, as by latch events with nothing of the panel's between them. -/
def execAll : List Instr → State → Result
  | [], s => .next s
  | i :: is, s =>
    match exec i s with
    | .next t => execAll is t
    | .fault r => .fault r
    | .refused r => .refused r

/-- The argument of the last request of a list that `sel` picks, or `d` if it picks none (R73). -/
def lastArg (sel : Instr → Option Bool) (is : List Instr) (d : Bool) : Bool :=
  is.foldl (fun v i => (sel i).getD v) d

/-- The argument that a request writes to `CTRL[2]`. -/
def displayArg : Instr → Option Bool
  | .setDisplay v => some v
  | _ => none

/-- The argument that a request writes to `CTRL[1]`. -/
def cursorArg : Instr → Option Bool
  | .setCursor v => some v
  | _ => none

/-- The argument that a request writes to `CTRL[0]`. -/
def blinkArg : Instr → Option Bool
  | .setBlink v => some v
  | _ => none

/-- The argument that a request writes to `MODE[4]`. -/
def eightArg : Instr → Option Bool
  | .setBitMode v => some v
  | _ => none

/-- The argument that a request writes to `MODE[3]`. -/
def linesArg : Instr → Option Bool
  | .setLines v => some v
  | _ => none

/-- The argument that a request writes to `MODE[2]`. -/
def fontArg : Instr → Option Bool
  | .setFont v => some v
  | _ => none

/-- No error has been recorded since reset: `STATUS[5:2] = 0` (D9). -/
def State.noErrors (s : State) : Prop := ∀ e : Err, s.errBit e = false

/-- A host that resets only an idle block (R118). -/
def State.resetIdle (s : State) : Prop := s.ports.rst = true → s.phase = .idle

/-- A host word that keeps the duty of R116: it never sends `DL = 0`. An unnamed byte of 0x20 to 0x2F (R54: D1:D0 ≠ 0) counts
as sending it here, because R92 calls any CMD of 0x20 to 0x3F a function set (DESIGN CHOICE, log 31). -/
def keepsEightBit (w : HostWord) (mode : ModeReg) : Bool :=
  match decodeHost w with
  | .instr (.setBitMode v) => v
  | .instr (.setLines _) | .instr (.setFont _) => mode.eight
  | .instr (.cmd b) => !(b.extractLsb' 5 3 == 0b001#3 && !b.getLsbD 4)
  | _ => true

/-- A safe edge, in the terms of the spec: no error is on record and the host keeps the duties of R116 and
R118. -/
def State.safeEdge (s : State) : Prop :=
  s.noErrors ∧ s.resetIdle ∧ (s.ports.reqValid = true → keepsEightBit s.ports.reqWord s.mode = true)

end Sys2Proof.Machine
end

