-- ==== Sys2Proof/Certificates/Slice0/Obligations.lean ====
section
/-! DEFINITION. The statements for the provers. Each docstring names the rule it formalises, and says where the
statement rests on a choice of the model's own. A statement about exec or step that gives the whole next state as
an update of the state before it is its frame too: every field not named is unchanged. -/

open Sys2Proof Sys2Proof.Machine

/-! ## Encoding -/

/-- Words written out from R47 and R52 decode to the instructions they stand for (ENC-2 to ENC-18). -/
def Obligations.HandwrittenWordsDecode : Prop :=
  decodeHost 0b000100000000#12 = .instr .init ∧
  decodeHost 0b001011111111#12 = .instr (.cmd 0xFF#8) ∧
  decodeHost 0b001101000001#12 = .instr (.data 0x41#8) ∧
  decodeHost 0b011000000001#12 = .instr (.setDir true) ∧
  decodeHost 0b101100000000#12 = .instr (.setBitMode false) ∧
  decodeHost 0b010010000000#12 = .illegal .nonzeroArg ∧
  decodeHost 0b011000000010#12 = .illegal .reservedArgBits ∧
  decodeHost 0b000000000000#12 = .illegal .reservedOpcode ∧
  decodePanel 0b000001101#9 = .instr (.displayControl true false true) ∧
  decodePanel 0b000101100#9 = .instr (.functionSet false true true) ∧
  decodePanel 0b011000000#9 = .instr (.setDdram 0x40#7) ∧
  decodePanel 0b101000001#9 = .instr (.dataWrite 0x41#8)

/-- Every instruction of both languages is what its encoding decodes to, with every operand (R47, R52). -/
def Obligations.DecodeInvertsEncode : Prop :=
  ∀ i : Instr, decode (encode i) = .instr i

/-- A word that decodes is the encoding of its instruction: no two words stand for one instruction, and no bit of
a word is ignored (R49, R54). -/
def Obligations.EncodeInvertsDecode : Prop :=
  ∀ (c : Code) (i : Instr), decode c = .instr i → encode i = c

/-- R49: the illegal words are exactly those of its three clauses, and accepting one raises ERR_ILLEGAL, consumes
the word and has no other effect, in any lifecycle. -/
def Obligations.IllegalWordsOnlyRaise : Prop :=
  ∀ w : HostWord,
    ((∃ r, decodeHost w = .illegal r) ↔
      (w.toNat / 256 = 0x0 ∨ w.toNat / 256 = 0xE ∨ w.toNat / 256 = 0xF) ∨
      ((w.toNat / 256 = 0x1 ∨ w.toNat / 256 = 0x4 ∨ w.toNat / 256 = 0x5) ∧ w.toNat % 256 ≠ 0) ∨
      ((w.toNat / 256 = 0x6 ∨ (0x8 ≤ w.toNat / 256 ∧ w.toNat / 256 ≤ 0xD)) ∧ 2 ≤ w.toNat % 256)) ∧
    (∀ s : State, (∃ r, decodeHost w = .illegal r) → s.accepts → s.ports.reqWord = w →
      step s = .next { s with errIllegal := true, edge := s.edge + 1,
                              ports := s.sched.headD Ports.quiet, sched := s.sched.tail })

/-- R51, R52, R54: a data word is DATA_WRITE; an instruction byte is classified by its highest set bit, and the
unnamed bytes are 0x00, 0x03, 0x10 to 0x1F, and 0x20 to 0x3F with D1:D0 ≠ 0. -/
def Obligations.BusWordClassification : Prop :=
  ∀ b : Byte,
    decodePanel (busWord true b) = .instr (.dataWrite b) ∧
    decodePanel (busWord false b) =
      if 0x80 ≤ b.toNat then .instr (.setDdram (BitVec.ofNat 7 b.toNat))
      else if 0x40 ≤ b.toNat then .instr (.setCgram (BitVec.ofNat 6 b.toNat))
      else if 0x20 ≤ b.toNat then
        if b.toNat % 4 = 0 then
          .instr (.functionSet (b.toNat / 16 % 2 == 1) (b.toNat / 8 % 2 == 1) (b.toNat / 4 % 2 == 1))
        else .illegal .unnamedByte
      else if 0x10 ≤ b.toNat then .illegal .unnamedByte
      else if 0x08 ≤ b.toNat then
        .instr (.displayControl (b.toNat / 4 % 2 == 1) (b.toNat / 2 % 2 == 1) (b.toNat % 2 == 1))
      else if b.toNat = 7 then .instr .shiftLeft
      else if b.toNat = 6 then .instr .writeRight
      else if b.toNat = 5 then .instr .shiftRight
      else if b.toNat = 4 then .instr .writeLeft
      else if b.toNat = 2 then .instr .returnHome
      else if b.toNat = 1 then .instr .clearDisplay
      else .illegal .unnamedByte

/-- R84: `write_string` issues SELECT_LINE 2 (0x702) for the newline byte and DATA otherwise, in order, one request
an element; R114: the words of the initialization sequence. That the newline byte is 0x0A is PRESUMED (log 22). -/
def Obligations.PseudoInstructionWords : Prop :=
  (∀ bs : List Byte, (Pseudo.writeString bs).expand.map encode =
    bs.map fun e => .host (if e = 0x0A#8 then 0x702#12 else 0x3#4 ++ e)) ∧
  Pseudo.lcdInitSequence.expand.map encode =
    [.host 0x100#12, .host 0xB01#12, .host 0xC01#12, .host 0xD00#12, .host 0x801#12, .host 0x901#12, .host 0xA01#12,
      .host 0x400#12]

/-! ## The clock edge -/

/-- Every edge from every state has a next state, the parameters stay, and the next edge has the next index and the
ports that the host scheduled for it (R67, R100; the schedule and the index are the model's, log 1, 8). -/
def Obligations.EveryStepAnswers : Prop :=
  ∀ s : State, ∃ t, step s = .next t ∧ t.params = s.params ∧ t.edge = s.edge + 1 ∧
    t.ports = s.sched.headD Ports.quiet ∧ t.sched = s.sched.tail

/-- R58: what an edge does. An edge with no reset, no transfer and no request changes nothing (but the index of the
edge and the ports, which are the model's, log 1, 8). -/
def Obligations.ClockStep : Prop :=
  ∀ s : State,
    (s.ports.rst = true → step s = .next s.doReset.afterEdge) ∧
    (s.ports.rst = false → s.phase = .idle → s.ports.reqValid = true →
      step s = mapNext State.afterEdge (dispatchWord s.ports.reqWord s)) ∧
    (s.ports.rst = false → s.phase = .idle → s.ports.reqValid = false →
      step s = .next { s with edge := s.edge + 1, ports := s.sched.headD Ports.quiet, sched := s.sched.tail }) ∧
    (s.ports.rst = false → s.phase ≠ .idle → 1 < s.cnt →
      step s = .next { s with cnt := s.cnt - 1, edge := s.edge + 1,
                              ports := s.sched.headD Ports.quiet, sched := s.sched.tail }) ∧
    (s.ports.rst = false → s.phase ≠ .idle → s.cnt ≤ 1 → step s = mapNext State.afterEdge (advance s))

/-- R17, R59: the step at an accept edge is exec of the instruction that the offered word decodes to, and then the
ports of the next edge. -/
def Obligations.AcceptedRequestExecutes : Prop :=
  ∀ (s : State) (i : Instr), s.accepts → decodeHost s.ports.reqWord = .instr i →
    step s = mapNext State.afterEdge (exec i s)

/-- R62, R63: the step at the edge where the enable falls is exec of the instruction that the bus word on the lines
decodes to, and then the end of HIGH and the ports of the next edge. That the panel's instruction runs at that edge
is DEDUCED (log 5). -/
def Obligations.LatchEdgeExecutes : Prop :=
  ∀ (s : State) (i : Instr), s.ports.rst = false → s.phase = .high → s.cnt ≤ 1 →
    decodePanel s.busWord = .instr i →
    step s = mapNext (fun t => { t with enQ := false, phase := .post, cnt := t.params.nPost, edge := t.edge + 1,
                                        ports := t.sched.headD Ports.quiet, sched := t.sched.tail }) (exec i s)

/-- R110, R111: the values a reset edge leaves, and the outputs they give; PINMAP is not written, no request is
accepted, and no latch event is recorded. -/
def Obligations.ResetValues : Prop :=
  ∀ s : State, s.ports.rst = true → ∃ t, step s = .next t ∧
    t.life = .uninit ∧ t.phase = .idle ∧ t.cnt = 0 ∧ t.xferLong = false ∧
    t.rsQ = false ∧ t.enQ = false ∧ t.dQ = 0x00#8 ∧ t.ctrlQ = 0x08#8 ∧ t.modeQ = 0x30#8 ∧ t.status = 0x00#8 ∧
    t.pinmap = s.pinmap ∧ t.trace = s.trace ∧
    t.reqReady = true ∧ t.lcdOe = false ∧ t.lcdPue = false ∧
    (∀ p, t.gpioOe p = false ∧ t.gpioPue p = false ∧ t.gpioO p = false)

/-- R58, R62, R63: how each phase ends, as an update of the state before it. R58 ends a phase where `cnt` is not above
1, which is 1 in every state of a run (R20). At the end of HIGH the event of R63 is recorded, the panel changes by some
effect, and the model's free-value counter advances (the model's choice, log 21). -/
def Obligations.PhaseEnds : Prop :=
  ∀ s : State, s.ports.rst = false → s.cnt ≤ 1 →
    (s.phase = .setup → step s = .next ({ s with enQ := true, phase := .high, cnt := s.params.nPw }.afterEdge)) ∧
    (s.phase = .high → ∃ p, step s = .next ({ s with
        enQ := false, phase := .post, cnt := s.params.nPost
        trace := s.trace ++ [({ edge := s.edge, rs := s.rsQ, byte := s.dQ } : LatchEvent)], panel := p
        free := s.free + 1 }.afterEdge)) ∧
    (s.phase = .post → s.xferLong = true →
      step s = .next ({ s with rsQ := false, phase := .long, cnt := s.params.nLong }.afterEdge)) ∧
    (s.phase = .post → s.xferLong = false → step s = .next ({ s with rsQ := false, phase := .idle }.afterEdge)) ∧
    (s.phase = .long → step s = .next ({ s with phase := .idle }.afterEdge))

/-- R63: a latch event is recorded, with the lines' values and the index of the edge, at exactly the edges where the
enable falls at the end of HIGH; a reset edge records none. -/
def Obligations.LatchEventsAtEnableFall : Prop :=
  ∀ s t : State, step s = .next t →
    (s.ports.rst = false ∧ s.phase = .high ∧ s.cnt ≤ 1 →
      t.trace = s.trace ++ [{ edge := s.edge, rs := s.rsQ, byte := s.dQ }]) ∧
    (¬(s.ports.rst = false ∧ s.phase = .high ∧ s.cnt ≤ 1) → t.trace = s.trace)

/-- R17: while a transfer runs, the block ignores `req_valid` and `req_word` (and `cfg_pin`, U18): the next state is
the same whatever they carry. -/
def Obligations.BusyBlockIgnoresRequests : Prop :=
  ∀ (s : State) (v : Bool) (w : HostWord) (c : PinAssignment), s.phase ≠ .idle →
    step { s with ports := { s.ports with reqValid := v, reqWord := w, cfgPin := c } } = step s

/-- R41, R43: without reset, a transfer starts only from IDLE, and once started goes through its phases in order;
SETUP is never entered from a running transfer. -/
def Obligations.PhasesInOrder : Prop :=
  ∀ s t : State, step s = .next t → s.ports.rst = false → t.phase ≠ s.phase →
    (s.phase = .idle ∧ t.phase = .setup ∧ s.ports.reqValid = true ∧ s.life = .ready) ∨
    (s.phase = .setup ∧ t.phase = .high) ∨ (s.phase = .high ∧ t.phase = .post) ∨
    (s.phase = .post ∧ t.phase = .long ∧ s.xferLong = true) ∨ (s.phase = .post ∧ t.phase = .idle ∧ s.xferLong = false) ∨
    (s.phase = .long ∧ t.phase = .idle)

/-! ## The requests -/

/-- R69: the three outcomes of INIT, each as the whole next state. -/
def Obligations.InitOutcomes : Prop :=
  ∀ s : State,
    (s.life = .uninit → pinsValid s.params.numGpio s.cfgPins = true →
      exec .init s = .next { s with
        pinmap := s.cfgPins, rsQ := false, enQ := false, dQ := 0x00#8, life := .ready }) ∧
    (s.life = .uninit → pinsValid s.params.numGpio s.cfgPins = false →
      exec .init s = .next { s with life := .failed, errCfg := true }) ∧
    (s.life ≠ .uninit → exec .init s = .next { s with errReinit := true })

/-- R68: an assignment is valid iff every identifier is below NUM_GPIO and no two roles share one. R16: the ports carry
the low PIN_W bits of each identifier (that a wider identifier is cut to them is DEDUCED, log 9), so the range test is
vacuous where `2^PIN_W = NUM_GPIO`. -/
def Obligations.PinsValidMeaning : Prop :=
  (∀ (n : Nat) (p : PinAssignment),
    pinsValid n p = true ↔
      (∀ r : Role, pinOf p r < n) ∧ (∀ r q : Role, r ≠ q → pinOf p r ≠ pinOf p q)) ∧
  (∀ (w : Nat) (p : PinAssignment) (r : Role), pinOf (onWires w p) r = pinOf p r % 2 ^ w) ∧
  (∀ (w : Nat) (p : PinAssignment),
    pinsValid (2 ^ w) (onWires w p) = true ↔
      ∀ r q : Role, r ≠ q → pinOf (onWires w p) r ≠ pinOf (onWires w p) q)

/-- R70, R71 over R61 and R66: CMD starts an instruction transfer, long for 0x01, 0x02 and 0x03 only; DATA starts a
data transfer, never long. -/
def Obligations.CmdAndDataStartTransfer : Prop :=
  ∀ (s : State) (b : Byte), s.life = .ready →
    exec (.cmd b) s = .next { s with
      rsQ := false, dQ := b, enQ := false, phase := .setup, cnt := s.params.nSu
      xferLong := b.toNat == 1 || b.toNat == 2 || b.toNat == 3 } ∧
    exec (.data b) s = .next { s with
      rsQ := true, dQ := b, enQ := false, phase := .setup, cnt := s.params.nSu, xferLong := false }

/-- R74 to R77 over R61: CLEAR and HOME start long transfers of 0x01 and 0x02; SET_DIR one of 0x06 or 0x04;
SELECT_LINE one of 0x80 or 0xC0 for lines 1 and 2, and is a no-op otherwise. -/
def Obligations.PlainCommandsStartTransfer : Prop :=
  ∀ (s : State) (v : Bool) (n : Byte), s.life = .ready →
    exec .clear s = .next { s with
      rsQ := false, dQ := 0x01#8, enQ := false, phase := .setup, cnt := s.params.nSu, xferLong := true } ∧
    exec .home s = .next { s with
      rsQ := false, dQ := 0x02#8, enQ := false, phase := .setup, cnt := s.params.nSu, xferLong := true } ∧
    exec (.setDir v) s = .next { s with
      rsQ := false, dQ := if v then 0x06#8 else 0x04#8, enQ := false, phase := .setup, cnt := s.params.nSu
      xferLong := false } ∧
    exec (.selectLine n) s = .next (
      if n.toNat = 1 ∨ n.toNat = 2 then
        ({ s with
          rsQ := false, dQ := if n.toNat = 1 then 0x80#8 else 0xC0#8, enQ := false, phase := .setup
          cnt := s.params.nSu, xferLong := false } : State)
      else s)

/-- R78 to R80 over R61: each writes its one bit of CTRL, leaves the other two, and sends the whole register after
the write. -/
def Obligations.ControlFlagRequests : Prop :=
  ∀ (s : State) (v : Bool), s.life = .ready →
    (∃ t, exec (.setDisplay v) s = .next t ∧ t.dQ = t.ctrlQ ∧
      t = { s with
        ctrl := { s.ctrl with display := v }, dQ := t.dQ, rsQ := false, enQ := false, phase := .setup
        cnt := s.params.nSu, xferLong := false }) ∧
    (∃ t, exec (.setCursor v) s = .next t ∧ t.dQ = t.ctrlQ ∧
      t = { s with
        ctrl := { s.ctrl with cursor := v }, dQ := t.dQ, rsQ := false, enQ := false, phase := .setup
        cnt := s.params.nSu, xferLong := false }) ∧
    (∃ t, exec (.setBlink v) s = .next t ∧ t.dQ = t.ctrlQ ∧
      t = { s with
        ctrl := { s.ctrl with blink := v }, dQ := t.dQ, rsQ := false, enQ := false, phase := .setup
        cnt := s.params.nSu, xferLong := false })

/-- R81 to R83 over R61: each writes its one bit of MODE, leaves the other two, and sends the whole register after
the write. -/
def Obligations.ModeFlagRequests : Prop :=
  ∀ (s : State) (v : Bool), s.life = .ready →
    (∃ t, exec (.setBitMode v) s = .next t ∧ t.dQ = t.modeQ ∧
      t = { s with
        mode := { s.mode with eight := v }, dQ := t.dQ, rsQ := false, enQ := false, phase := .setup
        cnt := s.params.nSu, xferLong := false }) ∧
    (∃ t, exec (.setLines v) s = .next t ∧ t.dQ = t.modeQ ∧
      t = { s with
        mode := { s.mode with twoLines := v }, dQ := t.dQ, rsQ := false, enQ := false, phase := .setup
        cnt := s.params.nSu, xferLong := false }) ∧
    (∃ t, exec (.setFont v) s = .next t ∧ t.dQ = t.modeQ ∧
      t = { s with
        mode := { s.mode with bigFont := v }, dQ := t.dQ, rsQ := false, enQ := false, phase := .setup
        cnt := s.params.nSu, xferLong := false })

/-- R59, R96: a legal request other than INIT in a lifecycle other than READY raises ERR_NOTINIT and has no other
effect. -/
def Obligations.NotReadyOnlyRaises : Prop :=
  ∀ (i : Instr) (s : State), i.isHost = true → i ≠ .init → s.life ≠ .ready →
    exec i s = .next { s with errNotInit := true }

/-- R72: SetField writes the bit under its mask and leaves every other bit, as the bitwise clear does and a logical
one would not. -/
def Obligations.SetFieldTouchesOneBit : Prop :=
  ∀ (r : Byte) (k i : Nat) (v : Bool), k < 8 → i < 8 →
    (setField r (1#8 <<< k) v).getLsbD i = if i = k then v else r.getLsbD i

/-- R73: over any run without reset, whatever the host offers and when, each bit of CTRL and MODE holds the argument of
the last request that wrote it, or what it held before if none has; over a run from a reset edge, its reset value if
none has. The requests are those executed at the accept edges of the run. -/
def Obligations.AccumulatorsHoldLastWrite : Prop :=
  (∀ (k : Nat) (s t : State), s.noResetFor k → run k s = .next t →
    t.ctrl.display = lastArg displayArg (executed k s) s.ctrl.display ∧
    t.ctrl.cursor = lastArg cursorArg (executed k s) s.ctrl.cursor ∧
    t.ctrl.blink = lastArg blinkArg (executed k s) s.ctrl.blink ∧
    t.mode.eight = lastArg eightArg (executed k s) s.mode.eight ∧
    t.mode.twoLines = lastArg linesArg (executed k s) s.mode.twoLines ∧
    t.mode.bigFont = lastArg fontArg (executed k s) s.mode.bigFont) ∧
  (∀ (k : Nat) (s u t : State), s.ports.rst = true → step s = .next u → u.noResetFor k → run k u = .next t →
    t.ctrl.display = lastArg displayArg (executed k u) false ∧
    t.ctrl.cursor = lastArg cursorArg (executed k u) false ∧
    t.ctrl.blink = lastArg blinkArg (executed k u) false ∧
    t.mode.eight = lastArg eightArg (executed k u) true ∧
    t.mode.twoLines = lastArg linesArg (executed k u) false ∧
    t.mode.bigFont = lastArg fontArg (executed k u) false)

/-! ## Errors and the status word -/

/-- R97: a request that raises sets its bit and has no other effect, except that ERR_CFG comes with FAILED; the bit
of an error already raised stays 1, and the block stays ready for the next request. -/
def Obligations.RaisingRequestHasNoOtherEffect : Prop :=
  ∀ (s : State) (e : Err), s.accepts → raisedError s = some e →
    ∃ t, step s = .next t ∧ t.reqReady = true ∧ (∀ x, t.errBit x = (decide (x = e) || s.errBit x)) ∧
      t = { s with
        life := if e = .cfg then .failed else s.life
        errCfg := t.errCfg, errNotInit := t.errNotInit, errReinit := t.errReinit, errIllegal := t.errIllegal
        edge := s.edge + 1, ports := s.sched.headD Ports.quiet, sched := s.sched.tail }

/-- R98, R99: an edge adds to the sticky bits exactly the error that the request accepted at it raises, at most one,
in the priority ILLEGAL, REINIT, NOTINIT, CFG; and clears none, unless it is a reset edge. -/
def Obligations.StickyBitsAccumulate : Prop :=
  ∀ s t : State, step s = .next t → s.ports.rst = false →
    (s.accepts → ∀ e, t.errBit e = (s.errBit e || decide (raisedError s = some e))) ∧
    (¬s.accepts → ∀ e, t.errBit e = s.errBit e)

/-- R27: what each bit of STATUS presents. -/
def Obligations.StatusBits : Prop :=
  ∀ s : State,
    (s.status.getLsbD 0 = true ↔ s.life = .ready) ∧ (s.status.getLsbD 1 = true ↔ s.phase ≠ .idle) ∧
    (∀ e : Err, s.status.getLsbD e.code = s.errBit e) ∧
    s.status.getLsbD 6 = false ∧ s.status.getLsbD 7 = false

/-! ## Who writes what -/

/-- R18: apart from reset, only an INIT request accepted while `life = UNINIT` writes `life`: READY if the assignment
is valid, FAILED if it is not; only reset leaves FAILED. -/
def Obligations.LifecycleWriters : Prop :=
  ∀ s t : State, step s = .next t →
    (s.ports.rst = true → t.life = .uninit) ∧
    (s.firstInit → t.life = if pinsValid s.params.numGpio s.cfgPins then .ready else .failed) ∧
    (s.ports.rst = false → ¬s.firstInit → t.life = s.life)

/-- R24: PINMAP is written at the accept edge of an INIT that succeeds, with what `cfg_pin` carries, and by nothing
else, reset included. -/
def Obligations.PinmapWriters : Prop :=
  ∀ s t : State, step s = .next t →
    (s.firstInit → pinsValid s.params.numGpio s.cfgPins = true → t.pinmap = s.cfgPins) ∧
    (¬(s.firstInit ∧ pinsValid s.params.numGpio s.cfgPins = true) → t.pinmap = s.pinmap)

/-- R25: CTRL reads a legal value in every state, is 0x08 after a reset edge, and apart from reset only an accepted
SET_DISPLAY, SET_CURSOR or SET_BLINK writes it, one bit each. -/
def Obligations.CtrlWriters : Prop :=
  ∀ s t : State, step s = .next t →
    (0x08 ≤ s.ctrlQ.toNat ∧ s.ctrlQ.toNat ≤ 0x0F) ∧
    (s.ports.rst = true → t.ctrlQ = 0x08#8) ∧
    (s.ports.rst = false → t.ctrlQ ≠ s.ctrlQ → s.accepts ∧ s.life = .ready ∧ ∃ v,
      (decodeHost s.ports.reqWord = .instr (.setDisplay v) ∧ t.ctrlQ = setField s.ctrlQ 0x04#8 v) ∨
      (decodeHost s.ports.reqWord = .instr (.setCursor v) ∧ t.ctrlQ = setField s.ctrlQ 0x02#8 v) ∨
      (decodeHost s.ports.reqWord = .instr (.setBlink v) ∧ t.ctrlQ = setField s.ctrlQ 0x01#8 v))

/-- R26: MODE reads a legal value in every state, is 0x30 after a reset edge, and apart from reset only an accepted
SET_BITMODE, SET_LINES or SET_FONT writes it, one bit each. -/
def Obligations.ModeWriters : Prop :=
  ∀ s t : State, step s = .next t →
    (∃ x : Byte, s.modeQ = 0x20#8 ||| (x &&& 0x1C#8)) ∧
    (s.ports.rst = true → t.modeQ = 0x30#8) ∧
    (s.ports.rst = false → t.modeQ ≠ s.modeQ → s.accepts ∧ s.life = .ready ∧ ∃ v,
      (decodeHost s.ports.reqWord = .instr (.setBitMode v) ∧ t.modeQ = setField s.modeQ 0x10#8 v) ∨
      (decodeHost s.ports.reqWord = .instr (.setLines v) ∧ t.modeQ = setField s.modeQ 0x08#8 v) ∨
      (decodeHost s.ports.reqWord = .instr (.setFont v) ∧ t.modeQ = setField s.modeQ 0x04#8 v))

/-! ## The lines and the pins -/

/-- R36: line D*i* carries bit *i* of the byte that a request transfers, for CMD and DATA. -/
def Obligations.LinesCarryBits : Prop :=
  ∀ (s t : State) (b : Byte), s.life = .ready → (exec (.cmd b) s = .next t ∨ exec (.data b) s = .next t) →
    [t.roleLevel .d0, t.roleLevel .d1, t.roleLevel .d2, t.roleLevel .d3, t.roleLevel .d4, t.roleLevel .d5,
      t.roleLevel .d6, t.roleLevel .d7] = (List.range 8).map fun i => b.toNat / 2 ^ i % 2 == 1

/-- R23: the ten lines are driven, and their pull-ups enabled, exactly while READY; a panel then sees each role's level,
and the platform's otherwise (a free value, log 20). R28: while READY, with a valid assignment (which the invariant of
the machine gives), each role's pin is driven and pulled up and carries the role's level, and every other pin is left to
the platform; otherwise every pin is. -/
def Obligations.PinRouting : Prop :=
  ∀ s : State,
    (s.lcdOe = true ↔ s.life = .ready) ∧ (s.lcdPue = true ↔ s.life = .ready) ∧
    (s.life = .ready → ∀ r, s.lineSeen r = s.roleLevel r) ∧
    (s.life ≠ .ready → ∀ r, s.lineSeen r = Config.undrivenLevel s.edge (Role.index r)) ∧
    (s.life = .ready → pinsValid s.params.numGpio s.pinmap = true →
      (∀ r, s.gpioOe (pinOf s.pinmap r) = true ∧ s.gpioPue (pinOf s.pinmap r) = true ∧
        s.gpioO (pinOf s.pinmap r) = s.roleLevel r) ∧
      (∀ p, (∀ r, pinOf s.pinmap r ≠ p) → s.gpioOe p = false ∧ s.gpioPue p = false ∧ s.gpioO p = false)) ∧
    (s.life ≠ .ready → ∀ p, s.gpioOe p = false ∧ s.gpioPue p = false ∧ s.gpioO p = false)

/-! ## Whole transfers -/

/-- R64: the timeline of a transfer accepted at the edge `t0 = s.edge`. After edge `t0 + k`: SETUP with EN low for
`N_SU` periods, HIGH with EN high for `N_PW`, POST with EN low for `N_POST`, then RS low and, in a long transfer, LONG
for `N_LONG`, then IDLE. RS and D stay as the request set them to the end of POST, D beyond it. The one latch event
is at edge `t0 + N_SU + N_PW`. The periods meet the minimums of R6. -/
def Obligations.TransferTimeline : Prop :=
  ∀ (s u : State) (i : Instr), s.params.ok = true → s.accepts → decodeHost s.ports.reqWord = .instr i →
    exec i s = .next u → u.phase = .setup →
    (2 * s.params.clkHz ≤ s.params.nSu * 1000000 ∧ 2 * s.params.clkHz ≤ s.params.nPw * 1000000 ∧
      100 * s.params.clkHz ≤ s.params.nPost * 1000000 ∧ 2 * s.params.clkHz ≤ s.params.nLong * 1000) ∧
    ∀ k, k ≤ normalCycles s.params + (if u.xferLong then s.params.nLong else 0) → s.noResetFor (k + 1) →
      ∃ t, run (k + 1) s = .next t ∧ t.dQ = u.dQ ∧
        (k < s.params.nSu →
          t.phase = .setup ∧ t.enQ = false ∧ t.rsQ = u.rsQ ∧ t.trace = s.trace) ∧
        (s.params.nSu ≤ k → k < s.params.nSu + s.params.nPw →
          t.phase = .high ∧ t.enQ = true ∧ t.rsQ = u.rsQ ∧ t.trace = s.trace) ∧
        (s.params.nSu + s.params.nPw ≤ k → k < normalCycles s.params →
          t.phase = .post ∧ t.enQ = false ∧ t.rsQ = u.rsQ) ∧
        (normalCycles s.params ≤ k →
          t.phase = (if k < normalCycles s.params + (if u.xferLong then s.params.nLong else 0) then .long else .idle) ∧
          t.enQ = false ∧ t.rsQ = false) ∧
        (s.params.nSu + s.params.nPw ≤ k →
          t.trace = s.trace ++ [{ edge := s.edge + s.params.nSu + s.params.nPw, rs := u.rsQ, byte := u.dQ }])

/-- R122, R60: the request accepted at an edge keeps the block busy for exactly the cycles of R122's table: none for
INIT, a rejected request and a SELECT_LINE of no line. -/
def Obligations.BusyCyclesOfRequests : Prop :=
  ∀ (s : State) (k : Nat), s.params.ok = true → s.accepts → k ≤ busyCycles s → s.noResetFor (k + 1) →
    ∃ t, run (k + 1) s = .next t ∧ (t.reqReady = true ↔ k = busyCycles s)

/-! ## Invariants and isolation -/

/-- R29: its six clauses hold in every state that a run reaches after a reset edge, whatever the state before that
edge, the parameters and the host's schedule. -/
def Obligations.LinesInvariantAfterReset : Prop :=
  ∀ (s t : State) (k : Nat), s.ports.rst = true → run (k + 1) s = .next t → t.LinesInv

/-- Every step keeps the invariant of the machine: R29's clauses; the counter's bounds (R20); data transfers are not
long (R66); the parameters meet R6; the assignment in force is valid (R24, R68); nothing is known of a panel whose
lines are not driven (R119, log 17); PINMAP fits its PIN_W bits (R24); the panel's memories keep their canonical form; the trace is in the order of
its edges (R41, R63). -/
def Obligations.StepKeepsInvariant : Prop :=
  ∀ s t : State, s.Inv → step s = .next t → t.Inv

/-- The invariant holds at reset, for the reset state's values of the parameters (log 2). -/
def Obligations.ResetMeetsInvariant : Prop := State.reset.Inv

/-- R100, R30, R31: nothing the panel does changes the block. Two states that differ only in the panel, in the events
it has seen and in the free values it will take go through the same states of the block, edge by edge. -/
def Obligations.PanelCannotReachBlock : Prop :=
  ∀ (k : Nat) (s t t' : State) (p : Panel) (tr : List LatchEvent) (n : Nat),
    run k s = .next t → run k { s with panel := p, trace := tr, free := n } = .next t' →
    t = { t' with panel := t.panel, trace := t.trace, free := t.free }

/-! ## The panel -/

/-- R63, R85 to R95: every panel instruction, in every state, records its bus word as a latch event, changes the panel
by its effect, advances the free-value counter (log 21), and leaves everything else, every register of the block
among it. -/
def Obligations.PanelInstructionsRecordEvent : Prop :=
  ∀ (i : Instr) (w : BusWord) (s : State), encode i = .panel w →
    ∃ p, exec i s = .next { s with
      trace := s.trace ++ [{ edge := s.edge, rs := w.getLsbD 8, byte := w.extractLsb' 0 8 }]
      panel := p, free := s.free + 1 }

/-- R85 to R88, R91, R93, R94: the effects that the document states, on a panel that is known, under the premise of
R120 and R113 (log 18). The home address and the direction after a clear are free values, and that a clear leaves no
byte of the display known is DEDUCED (log 14). That every part of the panel that the rule does not name keeps its value
is the model's choice (DEDUCED, log 26). -/
def Obligations.KnownPanelEffects : Prop :=
  ∀ (s : State) (r : PanelRegs) (d c b : Bool) (a : BitVec 6) (x : BitVec 7),
    s.panel = .known r → s.panelPremise = true →
    (∃ t, exec .clearDisplay s = .next t ∧
      t.panel = .known { r with addr := .ddram Config.homeAddr, dir := Config.clearDir.getD r.dir, ddram := [] }) ∧
    (∃ t, exec .returnHome s = .next t ∧ t.panel = .known { r with addr := .ddram Config.homeAddr }) ∧
    (∃ t, exec .writeLeft s = .next t ∧ t.panel = .known { r with dir := .left }) ∧
    (∃ t, exec .writeRight s = .next t ∧ t.panel = .known { r with dir := .right }) ∧
    (∃ t, exec (.displayControl d c b) s = .next t ∧
      t.panel = .known { r with display := d, cursor := c, blink := b }) ∧
    (∃ t, exec (.setCgram a) s = .next t ∧ t.panel = .known { r with addr := .cgram a }) ∧
    (∃ t, exec (.setDdram x) s = .next t ∧ t.panel = .known { r with addr := .ddram x })

/-- R95: DATA_WRITE on a known panel stores its byte at the current address, which advances in the write direction (by
a step that the document does not state: a free value, log 15), and leaves every other byte of both memories. At a
DDRAM address that the panel does not have, the panel's state is any value (U12; log 13); which addresses it has
beyond the named ones is a free value too (log 16). That the panel has every CGRAM address is the model's choice (log
30), and so is that the settings, the direction and the other memory keep their values (DEDUCED, log 26). -/
def Obligations.DataWriteStoresByte : Prop :=
  ∀ (s : State) (r : PanelRegs) (b : Byte), s.panel = .known r → s.panelPremise = true →
    (∀ a, r.addr = .ddram a → ∃ t, exec (.dataWrite b) s = .next t ∧
      if r.hasDdram a then
        ∃ q, t.panel = .known q ∧ q.addr = .ddram (Config.advanceDdram r.dir a) ∧
          Memory.read q.ddram a.toNat = some b ∧
          (∀ x, x ≠ a.toNat → Memory.read q.ddram x = Memory.read r.ddram x) ∧
          q = { r with addr := q.addr, ddram := q.ddram }
      else t.panel = anyPanel s.free) ∧
    (∀ a, r.addr = .cgram a →
      ∃ t q, exec (.dataWrite b) s = .next t ∧ t.panel = .known q ∧ q.addr = .cgram (Config.advanceCgram r.dir a) ∧
        Memory.read q.cgram a.toNat = some b ∧
        (∀ x, x ≠ a.toNat → Memory.read q.cgram x = Memory.read r.cgram x) ∧
        q = { r with addr := q.addr, cgram := q.cgram })

/-- R89, R90, R92, U7, U10: an effect that the document does not state gives a panel with any state; one that is
unknown stays so, and one in 4-bit mode or lost is lost (log 12). With DL = 0 the function set of U10 still switches the
panel to 4-bit mode, with free lines and font. A choice of the model's (log 13). -/
def Obligations.UnstatedPanelEffects : Prop :=
  ∀ s : State, s.panelPremise = true →
    (∃ t1 t2 t3, exec .shiftLeft s = .next t1 ∧ exec .shiftRight s = .next t2 ∧
      exec (.functionSet true true true) s = .next t3 ∧ t1.panel = t2.panel ∧ t2.panel = t3.panel ∧
      (s.panel.blank → t1.panel = s.panel) ∧ ((∃ l f, s.panel = .fourBit l f) → t1.panel = .lost) ∧
      (¬s.panel.blank → (∀ l f, s.panel ≠ .fourBit l f) → t1.panel = anyPanel s.free)) ∧
    (s.panel ≠ .lost → (∀ l f, s.panel ≠ .fourBit l f) → ∃ t, exec (.functionSet false true true) s = .next t ∧
      t.panel = .fourBit (Config.freeMode s.free).1 (Config.freeMode s.free).2)

/-- R114, R117, R119: a panel that is neither lost nor in 4-bit mode becomes known, or known anew, by a function set with
DL = 1, a display control and a clear, in that order, with the settings they carried and the cursor at home: the three
latch events are taken by `execAll`, with none of the edges between them (DEDUCED, log 24). An edge that takes a panel
not known to a known one is the latch of a clear after the other two, or, after the first of them, of a word without a
stated effect (0x05, 0x07, 0x3C or an unnamed byte), whose free value may be a known panel (log 13). The stages are
DEDUCED (log 11, 28), the home address and the direction free (log 14). -/
def Obligations.InitializationMakesPanelKnown : Prop :=
  (∀ (s : State) (n f d c b : Bool), s.panel ≠ .lost → (∀ l g, s.panel ≠ .fourBit l g) → s.panelPremise = true →
    (n && f) = false →
    ∃ t, execAll [.functionSet true n f, .displayControl d c b, .clearDisplay] s = .next t ∧
      t.panel = .known
        { display := d, cursor := c, blink := b, twoLines := n, bigFont := f
          dir := Config.clearDir.getD (Config.freeDir (s.free + 2))
          addr := .ddram Config.homeAddr, ddram := [], cgram := [] }) ∧
  (∀ (s t : State) (r : PanelRegs), step s = .next t → t.panel = .known r → (∀ q, s.panel ≠ .known q) →
    s.ports.rst = false ∧ s.phase = .high ∧ s.cnt ≤ 1 ∧ s.panelPremise = true ∧
    ((s.busWord = 0x001#9 ∧ ∃ n f d c b, s.panel = .displaySet n f d c b) ∨
     (t.panel = anyPanel s.free ∧
      ((∃ n f, s.panel = .functionSet n f) ∨ ∃ n f d c b, s.panel = .displaySet n f d c b) ∧
      (s.busWord = 0x005#9 ∨ s.busWord = 0x007#9 ∨ s.busWord = 0x03C#9 ∨ ∃ e, decodePanel s.busWord = .illegal e))))

/-- R116, U5: a function set with DL = 0 leaves a panel in 4-bit mode, or lost; every word latched after it, of either
kind, leaves the panel lost; and over any run a panel in 4-bit mode stays so or is lost, and a lost one stays lost, reset
included. That reset does not end this is DEDUCED (log 12). -/
def Obligations.FourBitModeLosesPanel : Prop :=
  (∀ (s : State) (n f : Bool), ∃ t, exec (.functionSet false n f) s = .next t ∧
    (t.panel = .lost ∨ ∃ l g, t.panel = .fourBit l g)) ∧
  (∀ (s : State) (i : Instr), i.isHost = false → (s.panel = .lost ∨ ∃ l g, s.panel = .fourBit l g) →
    ∃ t, exec i s = .next t ∧ t.panel = .lost) ∧
  (∀ (k : Nat) (s t : State), run k s = .next t →
    (s.panel = .lost → t.panel = .lost) ∧
    (∀ l g, s.panel = .fourBit l g → t.panel = .lost ∨ t.panel = .fourBit l g))

/-- R43, R118, R119: after a reset edge nothing is known of the panel, and one that cut a transfer short leaves it lost
(U4). That the former holds of an idle block too is DEDUCED (log 17). -/
def Obligations.ResetForgetsPanel : Prop :=
  ∀ s t : State, s.ports.rst = true → step s = .next t →
    t.panel.blank ∧ (s.phase ≠ .idle → t.panel = .lost)

/-- R54, U6: at the edge where the enable falls on an instruction byte that the source does not name, the block goes
on as with any other byte. The panel then has any state (the model's choice, log 13), stays unknown, or is lost: where it
was lost or in 4-bit mode (log 12), and where the premise on counts and power-on wait does not hold, a known panel too
(DEDUCED, log 18). The free-value counter advances (log 21). -/
def Obligations.UnnamedByteLatches : Prop :=
  ∀ (s : State) (r : Reject), s.ports.rst = false → s.phase = .high → s.cnt ≤ 1 →
    decodePanel s.busWord = .illegal r →
    step s = .next ({ s with
      enQ := false, phase := .post, cnt := s.params.nPost
      trace := s.trace ++ [({ edge := s.edge, rs := s.rsQ, byte := s.dQ } : LatchEvent)], free := s.free + 1
      panel := if s.panelPremise then s.panel.latched (Panel.unstated s.free) else .lost }.afterEdge)

/-- R117, U9, R120, R113, U8: a display control before a function set, or a clear before both, on a panel that is not
yet known, and any bus word latched without the premise on counts and power-on wait, leave nothing to say of the
panel. The treatment is the model's (log 11, 18). -/
def Obligations.UnmetDutiesLosePanel : Prop :=
  (∀ (s : State) (d c b : Bool), s.panel = .unknown → ∃ t, exec (.displayControl d c b) s = .next t ∧ t.panel = .lost) ∧
  (∀ s : State, (s.panel = .unknown ∨ ∃ n f, s.panel = .functionSet n f) →
    ∃ t, exec .clearDisplay s = .next t ∧ t.panel = .lost) ∧
  (∀ (s : State) (i : Instr), i.isHost = false → s.panelPremise = false →
    ∃ t, exec i s = .next t ∧ t.panel = .lost)

/-- R92: the effect of a function set on a panel that is neither lost nor in 4-bit mode: DL selects the interface, N the
lines and F the font. That the other settings are then not known until an initialization has run is DEDUCED (log 28);
N = F = 1 is in UnstatedPanelEffects. -/
def Obligations.FunctionSetEffects : Prop :=
  ∀ (s : State) (dl n f : Bool), s.panelPremise = true → s.panel ≠ .lost → (∀ l g, s.panel ≠ .fourBit l g) →
    (n && f) = false →
    ∃ t, exec (.functionSet dl n f) s = .next t ∧ t.panel = if dl then .functionSet n f else .fourBit n f

/-- R117, R119: before the initialization sequence has run, the six words RETURN_HOME, WRITE_LEFT, WRITE_RIGHT, SET_CGRAM,
SET_DDRAM and DATA_WRITE, whose effect the document states and which are no step of the sequence, leave what is known of
the panel as it is; at a stage, a further display control replaces the one latched before. The stages are DEDUCED, and so
is that DATA_WRITE leaves a stage's lines and font, although the address is then unknown and may be one that the panel
does not have (U12; log 11, 13, 16). The words without a stated effect are in UnstatedPanelEffects and UnnamedByteLatches
(log 13). -/
def Obligations.PanelStagesStay : Prop :=
  (∀ (s : State) (i : Instr),
    (i = .returnHome ∨ i = .writeLeft ∨ i = .writeRight ∨ (∃ a, i = .setCgram a) ∨ (∃ a, i = .setDdram a) ∨
      ∃ b, i = .dataWrite b) →
    s.panelPremise = true → (∀ r, s.panel ≠ .known r) → (∀ l f, s.panel ≠ .fourBit l f) →
    ∃ t, exec i s = .next t ∧ t.panel = s.panel) ∧
  (∀ (s : State) (n f d c b : Bool), s.panelPremise = true →
    (s.panel = .functionSet n f ∨ ∃ x y z, s.panel = .displaySet n f x y z) →
    ∃ t, exec (.displayControl d c b) s = .next t ∧ t.panel = .displaySet n f d c b)

/-- R38, R74 (W7): a clear followed immediately by a clear makes two latch events of 0x01, each with the whole time of a
long transfer, and no state, the panel's among it, differs from that after the first: what differs is the trace, and the
model's own index, ports, schedule and free-value counter (log 1, 8, 21). That the panel's direction is among what the
second leaves is log 14. -/
def Obligations.ClearTwiceIsClearOnce : Prop :=
  ∀ s t t' : State, s.params.ok = true → s.life = .ready →
    s.accepts → s.ports.reqWord = 0x400#12 → s.noResetFor (normalCycles s.params + s.params.nLong + 1) →
    run (normalCycles s.params + s.params.nLong + 1) s = .next t →
    t.accepts → t.ports.reqWord = 0x400#12 → t.noResetFor (normalCycles s.params + s.params.nLong + 1) →
    run (normalCycles s.params + s.params.nLong + 1) t = .next t' →
    t'.trace = s.trace ++ [{ edge := s.edge + s.params.nSu + s.params.nPw, rs := false, byte := 0x01#8 },
      { edge := t.edge + s.params.nSu + s.params.nPw, rs := false, byte := 0x01#8 }] ∧
    t' = { t with
      edge := t'.edge, ports := t'.ports, sched := t'.sched, trace := t'.trace, free := t'.free }
end

