-- ==== Sys2Proof/Laws/Memory.lean ====
section
/-! SUPPORT. The laws of the panel's known bytes: a read after a write, and the canonical form. -/

namespace Sys2Proof.Laws

open Sys2Proof.Machine

theorem read_write_same (m : Memory) (a : Nat) (b : Byte) : Memory.read (Memory.write m a b) a = some b := by
  induction m with
  | nil => simp [Memory.write, Memory.read]
  | cons c r ih =>
    unfold Memory.write
    split
    · simp [Memory.read]
    · split
      · simp [Memory.read]
      · rename_i h
        simp [Memory.read, Ne.symm h, ih]

theorem read_write_other (m : Memory) {a x : Nat} (b : Byte) (h : x ≠ a) :
    Memory.read (Memory.write m a b) x = Memory.read m x := by
  induction m with
  | nil => simp [Memory.write, Memory.read, Ne.symm h]
  | cons c r ih =>
    unfold Memory.write
    split
    · simp [Memory.read, Ne.symm h]
    · split
      · rename_i hc
        simp [Memory.read, Ne.symm h, ← hc]
      · simp [Memory.read, ih]

/-- The first address of the memory is above `x`. -/
theorem wf_cons (c : Host.Cell) (m : Memory) :
    Memory.wf (c :: m) = true ↔ (∀ d ∈ m.head?, c.1 < d.1) ∧ Memory.wf m = true := by
  cases m with
  | nil => simp [Memory.wf]
  | cons d r => simp [Memory.wf]

theorem head_write (m : Memory) (a : Nat) (b : Byte) (x : Nat) (hx : x < a) (hm : ∀ d ∈ m.head?, x < d.1) :
    ∀ d ∈ (Memory.write m a b).head?, x < d.1 := by
  cases m with
  | nil => simpa [Memory.write] using hx
  | cons c r =>
    unfold Memory.write
    split
    · simpa using hx
    · split
      · simpa using hx
      · simpa using hm

/-- Every memory operation keeps the canonical form. -/
theorem write_wf (m : Memory) (a : Nat) (b : Byte) (h : Memory.wf m = true) :
    Memory.wf (Memory.write m a b) = true := by
  induction m with
  | nil => rfl
  | cons c r ih =>
    rw [wf_cons] at h
    unfold Memory.write
    split
    · rename_i hlt
      rw [wf_cons]
      exact ⟨by simpa using hlt, (wf_cons c r).2 h⟩
    · split
      · rename_i heq
        rw [wf_cons]
        exact ⟨by simpa [heq] using h.1, h.2⟩
      · rename_i h1 h2
        rw [wf_cons]
        exact ⟨head_write r a b c.1 (by omega) h.1, ih h.2⟩

/-- A write adds no address but its own. -/
theorem all_write (m : Memory) (a : Nat) (b : Byte) (p : Nat → Bool) (hm : m.all (fun c => p c.1) = true)
    (ha : p a = true) : (Memory.write m a b).all (fun c => p c.1) = true := by
  induction m with
  | nil => simpa [Memory.write] using ha
  | cons c r ih =>
    simp only [List.all_cons, Bool.and_eq_true] at hm
    unfold Memory.write
    split
    · simp only [List.all_cons, Bool.and_eq_true]; exact ⟨ha, hm⟩
    · split
      · simp only [List.all_cons, Bool.and_eq_true]; exact ⟨ha, hm.2⟩
      · simp only [List.all_cons, Bool.and_eq_true]; exact ⟨hm.1, ih hm.2⟩

/-- The panel's memories are empty when its initialization completes; the empty memory is canonical. -/
theorem nil_wf : Memory.wf [] = true := rfl

end Sys2Proof.Laws
end

