-- ==== Sys2Proof/Laws/State.lean ====
section
/-! SUPPORT. One lemma per field per update of the state: what each shared operation leaves in each field, so that
no proof unfolds a record update. -/

namespace Sys2Proof.Laws

open Sys2Proof.Machine

variable (s : State)

/-! `startXfer`: the start of a transfer (R61). -/

@[simp] theorem startXfer_params (rs : Bool) (b : Byte) (long : Bool) : (s.startXfer rs b long).params = s.params := rfl
@[simp] theorem startXfer_ports (rs : Bool) (b : Byte) (long : Bool) : (s.startXfer rs b long).ports = s.ports := rfl
@[simp] theorem startXfer_sched (rs : Bool) (b : Byte) (long : Bool) : (s.startXfer rs b long).sched = s.sched := rfl
@[simp] theorem startXfer_edge (rs : Bool) (b : Byte) (long : Bool) : (s.startXfer rs b long).edge = s.edge := rfl
@[simp] theorem startXfer_life (rs : Bool) (b : Byte) (long : Bool) : (s.startXfer rs b long).life = s.life := rfl
@[simp] theorem startXfer_phase (rs : Bool) (b : Byte) (long : Bool) : (s.startXfer rs b long).phase = .setup := rfl
@[simp] theorem startXfer_cnt (rs : Bool) (b : Byte) (long : Bool) : (s.startXfer rs b long).cnt = s.params.nSu := rfl
@[simp] theorem startXfer_xferLong (rs : Bool) (b : Byte) (long : Bool) : (s.startXfer rs b long).xferLong = long := rfl
@[simp] theorem startXfer_rsQ (rs : Bool) (b : Byte) (long : Bool) : (s.startXfer rs b long).rsQ = rs := rfl
@[simp] theorem startXfer_enQ (rs : Bool) (b : Byte) (long : Bool) : (s.startXfer rs b long).enQ = false := rfl
@[simp] theorem startXfer_dQ (rs : Bool) (b : Byte) (long : Bool) : (s.startXfer rs b long).dQ = b := rfl
@[simp] theorem startXfer_pinmap (rs : Bool) (b : Byte) (long : Bool) : (s.startXfer rs b long).pinmap = s.pinmap := rfl
@[simp] theorem startXfer_ctrl (rs : Bool) (b : Byte) (long : Bool) : (s.startXfer rs b long).ctrl = s.ctrl := rfl
@[simp] theorem startXfer_mode (rs : Bool) (b : Byte) (long : Bool) : (s.startXfer rs b long).mode = s.mode := rfl
@[simp] theorem startXfer_errCfg (rs : Bool) (b : Byte) (long : Bool) : (s.startXfer rs b long).errCfg = s.errCfg := rfl
@[simp] theorem startXfer_errNotInit (rs : Bool) (b : Byte) (long : Bool) : (s.startXfer rs b long).errNotInit = s.errNotInit := rfl
@[simp] theorem startXfer_errReinit (rs : Bool) (b : Byte) (long : Bool) : (s.startXfer rs b long).errReinit = s.errReinit := rfl
@[simp] theorem startXfer_errIllegal (rs : Bool) (b : Byte) (long : Bool) : (s.startXfer rs b long).errIllegal = s.errIllegal := rfl
@[simp] theorem startXfer_trace (rs : Bool) (b : Byte) (long : Bool) : (s.startXfer rs b long).trace = s.trace := rfl
@[simp] theorem startXfer_panel (rs : Bool) (b : Byte) (long : Bool) : (s.startXfer rs b long).panel = s.panel := rfl
@[simp] theorem startXfer_free (rs : Bool) (b : Byte) (long : Bool) : (s.startXfer rs b long).free = s.free := rfl

/-! `writeCtrl`: a write of CTRL (R25). -/

@[simp] theorem writeCtrl_params (v : Byte) : (s.writeCtrl v).params = s.params := rfl
@[simp] theorem writeCtrl_ports (v : Byte) : (s.writeCtrl v).ports = s.ports := rfl
@[simp] theorem writeCtrl_sched (v : Byte) : (s.writeCtrl v).sched = s.sched := rfl
@[simp] theorem writeCtrl_edge (v : Byte) : (s.writeCtrl v).edge = s.edge := rfl
@[simp] theorem writeCtrl_life (v : Byte) : (s.writeCtrl v).life = s.life := rfl
@[simp] theorem writeCtrl_phase (v : Byte) : (s.writeCtrl v).phase = s.phase := rfl
@[simp] theorem writeCtrl_cnt (v : Byte) : (s.writeCtrl v).cnt = s.cnt := rfl
@[simp] theorem writeCtrl_xferLong (v : Byte) : (s.writeCtrl v).xferLong = s.xferLong := rfl
@[simp] theorem writeCtrl_rsQ (v : Byte) : (s.writeCtrl v).rsQ = s.rsQ := rfl
@[simp] theorem writeCtrl_enQ (v : Byte) : (s.writeCtrl v).enQ = s.enQ := rfl
@[simp] theorem writeCtrl_dQ (v : Byte) : (s.writeCtrl v).dQ = s.dQ := rfl
@[simp] theorem writeCtrl_pinmap (v : Byte) : (s.writeCtrl v).pinmap = s.pinmap := rfl
@[simp] theorem writeCtrl_ctrl (v : Byte) : (s.writeCtrl v).ctrl = CtrlReg.ofByte v := rfl
@[simp] theorem writeCtrl_mode (v : Byte) : (s.writeCtrl v).mode = s.mode := rfl
@[simp] theorem writeCtrl_errCfg (v : Byte) : (s.writeCtrl v).errCfg = s.errCfg := rfl
@[simp] theorem writeCtrl_errNotInit (v : Byte) : (s.writeCtrl v).errNotInit = s.errNotInit := rfl
@[simp] theorem writeCtrl_errReinit (v : Byte) : (s.writeCtrl v).errReinit = s.errReinit := rfl
@[simp] theorem writeCtrl_errIllegal (v : Byte) : (s.writeCtrl v).errIllegal = s.errIllegal := rfl
@[simp] theorem writeCtrl_trace (v : Byte) : (s.writeCtrl v).trace = s.trace := rfl
@[simp] theorem writeCtrl_panel (v : Byte) : (s.writeCtrl v).panel = s.panel := rfl
@[simp] theorem writeCtrl_free (v : Byte) : (s.writeCtrl v).free = s.free := rfl

/-! `writeMode`: a write of MODE (R26). -/

@[simp] theorem writeMode_params (v : Byte) : (s.writeMode v).params = s.params := rfl
@[simp] theorem writeMode_ports (v : Byte) : (s.writeMode v).ports = s.ports := rfl
@[simp] theorem writeMode_sched (v : Byte) : (s.writeMode v).sched = s.sched := rfl
@[simp] theorem writeMode_edge (v : Byte) : (s.writeMode v).edge = s.edge := rfl
@[simp] theorem writeMode_life (v : Byte) : (s.writeMode v).life = s.life := rfl
@[simp] theorem writeMode_phase (v : Byte) : (s.writeMode v).phase = s.phase := rfl
@[simp] theorem writeMode_cnt (v : Byte) : (s.writeMode v).cnt = s.cnt := rfl
@[simp] theorem writeMode_xferLong (v : Byte) : (s.writeMode v).xferLong = s.xferLong := rfl
@[simp] theorem writeMode_rsQ (v : Byte) : (s.writeMode v).rsQ = s.rsQ := rfl
@[simp] theorem writeMode_enQ (v : Byte) : (s.writeMode v).enQ = s.enQ := rfl
@[simp] theorem writeMode_dQ (v : Byte) : (s.writeMode v).dQ = s.dQ := rfl
@[simp] theorem writeMode_pinmap (v : Byte) : (s.writeMode v).pinmap = s.pinmap := rfl
@[simp] theorem writeMode_ctrl (v : Byte) : (s.writeMode v).ctrl = s.ctrl := rfl
@[simp] theorem writeMode_mode (v : Byte) : (s.writeMode v).mode = ModeReg.ofByte v := rfl
@[simp] theorem writeMode_errCfg (v : Byte) : (s.writeMode v).errCfg = s.errCfg := rfl
@[simp] theorem writeMode_errNotInit (v : Byte) : (s.writeMode v).errNotInit = s.errNotInit := rfl
@[simp] theorem writeMode_errReinit (v : Byte) : (s.writeMode v).errReinit = s.errReinit := rfl
@[simp] theorem writeMode_errIllegal (v : Byte) : (s.writeMode v).errIllegal = s.errIllegal := rfl
@[simp] theorem writeMode_trace (v : Byte) : (s.writeMode v).trace = s.trace := rfl
@[simp] theorem writeMode_panel (v : Byte) : (s.writeMode v).panel = s.panel := rfl
@[simp] theorem writeMode_free (v : Byte) : (s.writeMode v).free = s.free := rfl

/-! `doReset`: a reset edge (R110). -/

@[simp] theorem doReset_params : s.doReset.params = s.params := rfl
@[simp] theorem doReset_ports : s.doReset.ports = s.ports := rfl
@[simp] theorem doReset_sched : s.doReset.sched = s.sched := rfl
@[simp] theorem doReset_edge : s.doReset.edge = s.edge := rfl
@[simp] theorem doReset_life : s.doReset.life = .uninit := rfl
@[simp] theorem doReset_phase : s.doReset.phase = .idle := rfl
@[simp] theorem doReset_cnt : s.doReset.cnt = 0 := rfl
@[simp] theorem doReset_xferLong : s.doReset.xferLong = false := rfl
@[simp] theorem doReset_rsQ : s.doReset.rsQ = false := rfl
@[simp] theorem doReset_enQ : s.doReset.enQ = false := rfl
@[simp] theorem doReset_dQ : s.doReset.dQ = 0x00#8 := rfl
@[simp] theorem doReset_pinmap : s.doReset.pinmap = s.pinmap := rfl
@[simp] theorem doReset_ctrl : s.doReset.ctrl = CtrlReg.ofByte 0x08#8 := rfl
@[simp] theorem doReset_mode : s.doReset.mode = ModeReg.ofByte 0x30#8 := rfl
@[simp] theorem doReset_errCfg : s.doReset.errCfg = false := rfl
@[simp] theorem doReset_errNotInit : s.doReset.errNotInit = false := rfl
@[simp] theorem doReset_errReinit : s.doReset.errReinit = false := rfl
@[simp] theorem doReset_errIllegal : s.doReset.errIllegal = false := rfl
@[simp] theorem doReset_trace : s.doReset.trace = s.trace := rfl
@[simp] theorem doReset_panel : s.doReset.panel = s.panel.atReset s.phase := rfl
@[simp] theorem doReset_free : s.doReset.free = s.free := rfl

/-! `latch`: a latch event (R63). -/

@[simp] theorem latch_params (w : BusWord) (f : Nat → Panel → Panel) : (s.latch w f).params = s.params := rfl
@[simp] theorem latch_ports (w : BusWord) (f : Nat → Panel → Panel) : (s.latch w f).ports = s.ports := rfl
@[simp] theorem latch_sched (w : BusWord) (f : Nat → Panel → Panel) : (s.latch w f).sched = s.sched := rfl
@[simp] theorem latch_edge (w : BusWord) (f : Nat → Panel → Panel) : (s.latch w f).edge = s.edge := rfl
@[simp] theorem latch_life (w : BusWord) (f : Nat → Panel → Panel) : (s.latch w f).life = s.life := rfl
@[simp] theorem latch_phase (w : BusWord) (f : Nat → Panel → Panel) : (s.latch w f).phase = s.phase := rfl
@[simp] theorem latch_cnt (w : BusWord) (f : Nat → Panel → Panel) : (s.latch w f).cnt = s.cnt := rfl
@[simp] theorem latch_xferLong (w : BusWord) (f : Nat → Panel → Panel) : (s.latch w f).xferLong = s.xferLong := rfl
@[simp] theorem latch_rsQ (w : BusWord) (f : Nat → Panel → Panel) : (s.latch w f).rsQ = s.rsQ := rfl
@[simp] theorem latch_enQ (w : BusWord) (f : Nat → Panel → Panel) : (s.latch w f).enQ = s.enQ := rfl
@[simp] theorem latch_dQ (w : BusWord) (f : Nat → Panel → Panel) : (s.latch w f).dQ = s.dQ := rfl
@[simp] theorem latch_pinmap (w : BusWord) (f : Nat → Panel → Panel) : (s.latch w f).pinmap = s.pinmap := rfl
@[simp] theorem latch_ctrl (w : BusWord) (f : Nat → Panel → Panel) : (s.latch w f).ctrl = s.ctrl := rfl
@[simp] theorem latch_mode (w : BusWord) (f : Nat → Panel → Panel) : (s.latch w f).mode = s.mode := rfl
@[simp] theorem latch_errCfg (w : BusWord) (f : Nat → Panel → Panel) : (s.latch w f).errCfg = s.errCfg := rfl
@[simp] theorem latch_errNotInit (w : BusWord) (f : Nat → Panel → Panel) : (s.latch w f).errNotInit = s.errNotInit := rfl
@[simp] theorem latch_errReinit (w : BusWord) (f : Nat → Panel → Panel) : (s.latch w f).errReinit = s.errReinit := rfl
@[simp] theorem latch_errIllegal (w : BusWord) (f : Nat → Panel → Panel) : (s.latch w f).errIllegal = s.errIllegal := rfl
@[simp] theorem latch_trace (w : BusWord) (f : Nat → Panel → Panel) : (s.latch w f).trace = s.trace ++ [{ edge := s.edge, rs := w.getLsbD 8, byte := w.extractLsb' 0 8 }] := rfl
@[simp] theorem latch_panel (w : BusWord) (f : Nat → Panel → Panel) : (s.latch w f).panel = (if s.panelPremise then s.panel.latched (f s.free) else .lost) := rfl
@[simp] theorem latch_free (w : BusWord) (f : Nat → Panel → Panel) : (s.latch w f).free = s.free + 1 := rfl

/-! `raiseEnable`: the end of SETUP (R62). -/

@[simp] theorem raiseEnable_params : s.raiseEnable.params = s.params := rfl
@[simp] theorem raiseEnable_ports : s.raiseEnable.ports = s.ports := rfl
@[simp] theorem raiseEnable_sched : s.raiseEnable.sched = s.sched := rfl
@[simp] theorem raiseEnable_edge : s.raiseEnable.edge = s.edge := rfl
@[simp] theorem raiseEnable_life : s.raiseEnable.life = s.life := rfl
@[simp] theorem raiseEnable_phase : s.raiseEnable.phase = .high := rfl
@[simp] theorem raiseEnable_cnt : s.raiseEnable.cnt = s.params.nPw := rfl
@[simp] theorem raiseEnable_xferLong : s.raiseEnable.xferLong = s.xferLong := rfl
@[simp] theorem raiseEnable_rsQ : s.raiseEnable.rsQ = s.rsQ := rfl
@[simp] theorem raiseEnable_enQ : s.raiseEnable.enQ = true := rfl
@[simp] theorem raiseEnable_dQ : s.raiseEnable.dQ = s.dQ := rfl
@[simp] theorem raiseEnable_pinmap : s.raiseEnable.pinmap = s.pinmap := rfl
@[simp] theorem raiseEnable_ctrl : s.raiseEnable.ctrl = s.ctrl := rfl
@[simp] theorem raiseEnable_mode : s.raiseEnable.mode = s.mode := rfl
@[simp] theorem raiseEnable_errCfg : s.raiseEnable.errCfg = s.errCfg := rfl
@[simp] theorem raiseEnable_errNotInit : s.raiseEnable.errNotInit = s.errNotInit := rfl
@[simp] theorem raiseEnable_errReinit : s.raiseEnable.errReinit = s.errReinit := rfl
@[simp] theorem raiseEnable_errIllegal : s.raiseEnable.errIllegal = s.errIllegal := rfl
@[simp] theorem raiseEnable_trace : s.raiseEnable.trace = s.trace := rfl
@[simp] theorem raiseEnable_panel : s.raiseEnable.panel = s.panel := rfl
@[simp] theorem raiseEnable_free : s.raiseEnable.free = s.free := rfl

/-! `lowerEnable`: the end of HIGH (R62). -/

@[simp] theorem lowerEnable_params : s.lowerEnable.params = s.params := rfl
@[simp] theorem lowerEnable_ports : s.lowerEnable.ports = s.ports := rfl
@[simp] theorem lowerEnable_sched : s.lowerEnable.sched = s.sched := rfl
@[simp] theorem lowerEnable_edge : s.lowerEnable.edge = s.edge := rfl
@[simp] theorem lowerEnable_life : s.lowerEnable.life = s.life := rfl
@[simp] theorem lowerEnable_phase : s.lowerEnable.phase = .post := rfl
@[simp] theorem lowerEnable_cnt : s.lowerEnable.cnt = s.params.nPost := rfl
@[simp] theorem lowerEnable_xferLong : s.lowerEnable.xferLong = s.xferLong := rfl
@[simp] theorem lowerEnable_rsQ : s.lowerEnable.rsQ = s.rsQ := rfl
@[simp] theorem lowerEnable_enQ : s.lowerEnable.enQ = false := rfl
@[simp] theorem lowerEnable_dQ : s.lowerEnable.dQ = s.dQ := rfl
@[simp] theorem lowerEnable_pinmap : s.lowerEnable.pinmap = s.pinmap := rfl
@[simp] theorem lowerEnable_ctrl : s.lowerEnable.ctrl = s.ctrl := rfl
@[simp] theorem lowerEnable_mode : s.lowerEnable.mode = s.mode := rfl
@[simp] theorem lowerEnable_errCfg : s.lowerEnable.errCfg = s.errCfg := rfl
@[simp] theorem lowerEnable_errNotInit : s.lowerEnable.errNotInit = s.errNotInit := rfl
@[simp] theorem lowerEnable_errReinit : s.lowerEnable.errReinit = s.errReinit := rfl
@[simp] theorem lowerEnable_errIllegal : s.lowerEnable.errIllegal = s.errIllegal := rfl
@[simp] theorem lowerEnable_trace : s.lowerEnable.trace = s.trace := rfl
@[simp] theorem lowerEnable_panel : s.lowerEnable.panel = s.panel := rfl
@[simp] theorem lowerEnable_free : s.lowerEnable.free = s.free := rfl

/-! `endLong`: the end of LONG (R62). -/

@[simp] theorem endLong_params : s.endLong.params = s.params := rfl
@[simp] theorem endLong_ports : s.endLong.ports = s.ports := rfl
@[simp] theorem endLong_sched : s.endLong.sched = s.sched := rfl
@[simp] theorem endLong_edge : s.endLong.edge = s.edge := rfl
@[simp] theorem endLong_life : s.endLong.life = s.life := rfl
@[simp] theorem endLong_phase : s.endLong.phase = .idle := rfl
@[simp] theorem endLong_cnt : s.endLong.cnt = s.cnt := rfl
@[simp] theorem endLong_xferLong : s.endLong.xferLong = s.xferLong := rfl
@[simp] theorem endLong_rsQ : s.endLong.rsQ = s.rsQ := rfl
@[simp] theorem endLong_enQ : s.endLong.enQ = s.enQ := rfl
@[simp] theorem endLong_dQ : s.endLong.dQ = s.dQ := rfl
@[simp] theorem endLong_pinmap : s.endLong.pinmap = s.pinmap := rfl
@[simp] theorem endLong_ctrl : s.endLong.ctrl = s.ctrl := rfl
@[simp] theorem endLong_mode : s.endLong.mode = s.mode := rfl
@[simp] theorem endLong_errCfg : s.endLong.errCfg = s.errCfg := rfl
@[simp] theorem endLong_errNotInit : s.endLong.errNotInit = s.errNotInit := rfl
@[simp] theorem endLong_errReinit : s.endLong.errReinit = s.errReinit := rfl
@[simp] theorem endLong_errIllegal : s.endLong.errIllegal = s.errIllegal := rfl
@[simp] theorem endLong_trace : s.endLong.trace = s.trace := rfl
@[simp] theorem endLong_panel : s.endLong.panel = s.panel := rfl
@[simp] theorem endLong_free : s.endLong.free = s.free := rfl

/-! `countDown`: one cycle of a phase (R58). -/

@[simp] theorem countDown_params : s.countDown.params = s.params := rfl
@[simp] theorem countDown_ports : s.countDown.ports = s.ports := rfl
@[simp] theorem countDown_sched : s.countDown.sched = s.sched := rfl
@[simp] theorem countDown_edge : s.countDown.edge = s.edge := rfl
@[simp] theorem countDown_life : s.countDown.life = s.life := rfl
@[simp] theorem countDown_phase : s.countDown.phase = s.phase := rfl
@[simp] theorem countDown_cnt : s.countDown.cnt = s.cnt - 1 := rfl
@[simp] theorem countDown_xferLong : s.countDown.xferLong = s.xferLong := rfl
@[simp] theorem countDown_rsQ : s.countDown.rsQ = s.rsQ := rfl
@[simp] theorem countDown_enQ : s.countDown.enQ = s.enQ := rfl
@[simp] theorem countDown_dQ : s.countDown.dQ = s.dQ := rfl
@[simp] theorem countDown_pinmap : s.countDown.pinmap = s.pinmap := rfl
@[simp] theorem countDown_ctrl : s.countDown.ctrl = s.ctrl := rfl
@[simp] theorem countDown_mode : s.countDown.mode = s.mode := rfl
@[simp] theorem countDown_errCfg : s.countDown.errCfg = s.errCfg := rfl
@[simp] theorem countDown_errNotInit : s.countDown.errNotInit = s.errNotInit := rfl
@[simp] theorem countDown_errReinit : s.countDown.errReinit = s.errReinit := rfl
@[simp] theorem countDown_errIllegal : s.countDown.errIllegal = s.errIllegal := rfl
@[simp] theorem countDown_trace : s.countDown.trace = s.trace := rfl
@[simp] theorem countDown_panel : s.countDown.panel = s.panel := rfl
@[simp] theorem countDown_free : s.countDown.free = s.free := rfl

/-! `afterEdge`: the ports of the next edge. -/

@[simp] theorem afterEdge_params : s.afterEdge.params = s.params := rfl
@[simp] theorem afterEdge_ports : s.afterEdge.ports = s.sched.headD Ports.quiet := rfl
@[simp] theorem afterEdge_sched : s.afterEdge.sched = s.sched.tail := rfl
@[simp] theorem afterEdge_edge : s.afterEdge.edge = s.edge + 1 := rfl
@[simp] theorem afterEdge_life : s.afterEdge.life = s.life := rfl
@[simp] theorem afterEdge_phase : s.afterEdge.phase = s.phase := rfl
@[simp] theorem afterEdge_cnt : s.afterEdge.cnt = s.cnt := rfl
@[simp] theorem afterEdge_xferLong : s.afterEdge.xferLong = s.xferLong := rfl
@[simp] theorem afterEdge_rsQ : s.afterEdge.rsQ = s.rsQ := rfl
@[simp] theorem afterEdge_enQ : s.afterEdge.enQ = s.enQ := rfl
@[simp] theorem afterEdge_dQ : s.afterEdge.dQ = s.dQ := rfl
@[simp] theorem afterEdge_pinmap : s.afterEdge.pinmap = s.pinmap := rfl
@[simp] theorem afterEdge_ctrl : s.afterEdge.ctrl = s.ctrl := rfl
@[simp] theorem afterEdge_mode : s.afterEdge.mode = s.mode := rfl
@[simp] theorem afterEdge_errCfg : s.afterEdge.errCfg = s.errCfg := rfl
@[simp] theorem afterEdge_errNotInit : s.afterEdge.errNotInit = s.errNotInit := rfl
@[simp] theorem afterEdge_errReinit : s.afterEdge.errReinit = s.errReinit := rfl
@[simp] theorem afterEdge_errIllegal : s.afterEdge.errIllegal = s.errIllegal := rfl
@[simp] theorem afterEdge_trace : s.afterEdge.trace = s.trace := rfl
@[simp] theorem afterEdge_panel : s.afterEdge.panel = s.panel := rfl
@[simp] theorem afterEdge_free : s.afterEdge.free = s.free := rfl

/-! `raise`: an error (R97). -/

@[simp] theorem raise_params (e : Err) : (s.raise e).params = s.params := by cases e <;> rfl
@[simp] theorem raise_ports (e : Err) : (s.raise e).ports = s.ports := by cases e <;> rfl
@[simp] theorem raise_sched (e : Err) : (s.raise e).sched = s.sched := by cases e <;> rfl
@[simp] theorem raise_edge (e : Err) : (s.raise e).edge = s.edge := by cases e <;> rfl
@[simp] theorem raise_life (e : Err) : (s.raise e).life = s.life := by cases e <;> rfl
@[simp] theorem raise_phase (e : Err) : (s.raise e).phase = s.phase := by cases e <;> rfl
@[simp] theorem raise_cnt (e : Err) : (s.raise e).cnt = s.cnt := by cases e <;> rfl
@[simp] theorem raise_xferLong (e : Err) : (s.raise e).xferLong = s.xferLong := by cases e <;> rfl
@[simp] theorem raise_rsQ (e : Err) : (s.raise e).rsQ = s.rsQ := by cases e <;> rfl
@[simp] theorem raise_enQ (e : Err) : (s.raise e).enQ = s.enQ := by cases e <;> rfl
@[simp] theorem raise_dQ (e : Err) : (s.raise e).dQ = s.dQ := by cases e <;> rfl
@[simp] theorem raise_pinmap (e : Err) : (s.raise e).pinmap = s.pinmap := by cases e <;> rfl
@[simp] theorem raise_ctrl (e : Err) : (s.raise e).ctrl = s.ctrl := by cases e <;> rfl
@[simp] theorem raise_mode (e : Err) : (s.raise e).mode = s.mode := by cases e <;> rfl
@[simp] theorem raise_trace (e : Err) : (s.raise e).trace = s.trace := by cases e <;> rfl
@[simp] theorem raise_panel (e : Err) : (s.raise e).panel = s.panel := by cases e <;> rfl
@[simp] theorem raise_free (e : Err) : (s.raise e).free = s.free := by cases e <;> rfl
@[simp] theorem raise_errBit (e e' : Err) : (s.raise e).errBit e' = (decide (e' = e) || s.errBit e') := by
  cases e <;> cases e' <;> simp [State.raise, State.errBit]

/-! `endPost`: the end of POST (R62). -/

@[simp] theorem endPost_params : s.endPost.params = s.params := by
  cases h : s.xferLong <;> simp [State.endPost, h]
@[simp] theorem endPost_ports : s.endPost.ports = s.ports := by
  cases h : s.xferLong <;> simp [State.endPost, h]
@[simp] theorem endPost_sched : s.endPost.sched = s.sched := by
  cases h : s.xferLong <;> simp [State.endPost, h]
@[simp] theorem endPost_edge : s.endPost.edge = s.edge := by
  cases h : s.xferLong <;> simp [State.endPost, h]
@[simp] theorem endPost_life : s.endPost.life = s.life := by
  cases h : s.xferLong <;> simp [State.endPost, h]
@[simp] theorem endPost_phase : s.endPost.phase = if s.xferLong then .long else .idle := by
  cases h : s.xferLong <;> simp [State.endPost, h]
@[simp] theorem endPost_cnt : s.endPost.cnt = if s.xferLong then s.params.nLong else s.cnt := by
  cases h : s.xferLong <;> simp [State.endPost, h]
@[simp] theorem endPost_xferLong : s.endPost.xferLong = s.xferLong := by
  cases h : s.xferLong <;> simp [State.endPost, h]
@[simp] theorem endPost_rsQ : s.endPost.rsQ = false := by
  cases h : s.xferLong <;> simp [State.endPost, h]
@[simp] theorem endPost_enQ : s.endPost.enQ = s.enQ := by
  cases h : s.xferLong <;> simp [State.endPost, h]
@[simp] theorem endPost_dQ : s.endPost.dQ = s.dQ := by
  cases h : s.xferLong <;> simp [State.endPost, h]
@[simp] theorem endPost_pinmap : s.endPost.pinmap = s.pinmap := by
  cases h : s.xferLong <;> simp [State.endPost, h]
@[simp] theorem endPost_ctrl : s.endPost.ctrl = s.ctrl := by
  cases h : s.xferLong <;> simp [State.endPost, h]
@[simp] theorem endPost_mode : s.endPost.mode = s.mode := by
  cases h : s.xferLong <;> simp [State.endPost, h]
@[simp] theorem endPost_errCfg : s.endPost.errCfg = s.errCfg := by
  cases h : s.xferLong <;> simp [State.endPost, h]
@[simp] theorem endPost_errNotInit : s.endPost.errNotInit = s.errNotInit := by
  cases h : s.xferLong <;> simp [State.endPost, h]
@[simp] theorem endPost_errReinit : s.endPost.errReinit = s.errReinit := by
  cases h : s.xferLong <;> simp [State.endPost, h]
@[simp] theorem endPost_errIllegal : s.endPost.errIllegal = s.errIllegal := by
  cases h : s.xferLong <;> simp [State.endPost, h]
@[simp] theorem endPost_trace : s.endPost.trace = s.trace := by
  cases h : s.xferLong <;> simp [State.endPost, h]
@[simp] theorem endPost_panel : s.endPost.panel = s.panel := by
  cases h : s.xferLong <;> simp [State.endPost, h]
@[simp] theorem endPost_free : s.endPost.free = s.free := by
  cases h : s.xferLong <;> simp [State.endPost, h]

end Sys2Proof.Laws
end

