-- ==== Sys2Proof/Laws/Ops.lean ====
section
/-! SUPPORT. What each shared operation can do, said once: the outcomes of a meaning, of an edge and of a step, to be
cited instead of unfolding them. -/

namespace Sys2Proof.Laws

open Sys2Proof.Machine

@[simp] theorem mapNext_next (f : State → State) (s : State) : mapNext f (.next s) = .next (f s) := rfl

/-- `mapNext` answers a next state exactly when its argument does. -/
theorem mapNext_eq_next {f : State → State} {r : Result} {t : State} :
    mapNext f r = .next t ↔ ∃ u, r = .next u ∧ t = f u := by
  cases r with
  | next u => simp [mapNext, eq_comm]
  | fault r => simp [mapNext]
  | refused r => simp [mapNext]

/-- What the wires carry fits them (R16). -/
theorem onWires_fits (pinW : Nat) (p : PinAssignment) : (onWires pinW p).fits pinW = true := by
  simp [PinAssignment.fits, PinAssignment.toList, onWires, Nat.mod_lt]

/-- Wires that an assignment fits carry it unchanged (R16). -/
theorem onWires_of_fits {pinW : Nat} {p : PinAssignment} (h : p.fits pinW = true) : onWires pinW p = p := by
  simp only [PinAssignment.fits, PinAssignment.toList, List.all_cons, List.all_nil, Bool.and_true, Bool.and_eq_true,
    decide_eq_true_eq] at h
  obtain ⟨h0, h1, h2, h3, h4, h5, h6, h7, h8, h9⟩ := h
  simp only [onWires, Nat.mod_eq_of_lt, h0, h1, h2, h3, h4, h5, h6, h7, h8, h9]

/-- A request in the READY lifecycle runs (R59). -/
theorem requireReady_ready {act : State → State} {s : State} (h : s.life = .ready) :
    requireReady act s = .next (act s) := by simp [requireReady, h]

/-- A request in another lifecycle raises ERR_NOTINIT (R59, R98). -/
theorem requireReady_notReady {act : State → State} {s : State} (h : s.life ≠ .ready) :
    requireReady act s = .next (s.raise .notInit) := by simp [requireReady, h]

/-- Every byte written back to `CTRL` from `CTRL` is what it was (R25). -/
@[simp] theorem ctrl_ofByte_byte (c : CtrlReg) : CtrlReg.ofByte c.byte = c := by
  obtain ⟨d, c, b⟩ := c
  cases d <;> cases c <;> cases b <;> rfl

/-- Every byte written back to `MODE` from `MODE` is what it was (R26). -/
@[simp] theorem mode_ofByte_byte (m : ModeReg) : ModeReg.ofByte m.byte = m := by
  obtain ⟨d, n, f⟩ := m
  cases d <;> cases n <;> cases f <;> rfl

/-- SetField on CTRL under the mask of D (R72, R25). -/
theorem setField_display (c : CtrlReg) (v : Bool) :
    setField c.byte 0x04#8 v = ({ c with display := v } : CtrlReg).byte := by
  obtain ⟨d, c, b⟩ := c
  cases v <;> cases d <;> cases c <;> cases b <;> decide

/-- SetField on CTRL under the mask of C (R72, R25). -/
theorem setField_cursor (c : CtrlReg) (v : Bool) :
    setField c.byte 0x02#8 v = ({ c with cursor := v } : CtrlReg).byte := by
  obtain ⟨d, c, b⟩ := c
  cases v <;> cases d <;> cases c <;> cases b <;> decide

/-- SetField on CTRL under the mask of B (R72, R25). -/
theorem setField_blink (c : CtrlReg) (v : Bool) :
    setField c.byte 0x01#8 v = ({ c with blink := v } : CtrlReg).byte := by
  obtain ⟨d, c, b⟩ := c
  cases v <;> cases d <;> cases c <;> cases b <;> decide

/-- SetField on MODE under the mask of DL (R72, R26). -/
theorem setField_eight (m : ModeReg) (v : Bool) :
    setField m.byte 0x10#8 v = ({ m with eight := v } : ModeReg).byte := by
  obtain ⟨d, n, f⟩ := m
  cases v <;> cases d <;> cases n <;> cases f <;> decide

/-- SetField on MODE under the mask of N (R72, R26). -/
theorem setField_twoLines (m : ModeReg) (v : Bool) :
    setField m.byte 0x08#8 v = ({ m with twoLines := v } : ModeReg).byte := by
  obtain ⟨d, n, f⟩ := m
  cases v <;> cases d <;> cases n <;> cases f <;> decide

/-- SetField on MODE under the mask of F (R72, R26). -/
theorem setField_bigFont (m : ModeReg) (v : Bool) :
    setField m.byte 0x04#8 v = ({ m with bigFont := v } : ModeReg).byte := by
  obtain ⟨d, n, f⟩ := m
  cases v <;> cases d <;> cases n <;> cases f <;> decide

/-- The operand that a SELECT_LINE request takes its base from (R77). -/
theorem lineBase_cases (n : Byte) :
    (n = 1#8 ∧ lineBase n = some 0x00#7) ∨ (n = 2#8 ∧ lineBase n = some 0x40#7) ∨
      (n ≠ 1#8 ∧ n ≠ 2#8 ∧ lineBase n = none) := by
  unfold lineBase
  split
  · exact .inl ⟨‹_›, rfl⟩
  · split
    · exact .inr (.inl ⟨‹_›, rfl⟩)
    · exact .inr (.inr ⟨‹_›, ‹_›, rfl⟩)

/-- What a state is after a request that started a transfer: `CTRL` or `MODE` may have been written before it, and
a data transfer is not long (R66). -/
def Started (s t : State) : Prop :=
  ∃ c m rs b long, (long = true → rs = false) ∧ t = ({ s with ctrl := c, mode := m } : State).startXfer rs b long

/-- Every outcome of a host request (R59, R97): INIT's three, the rejection of another request before READY,
SELECT_LINE's no-op, or a transfer. -/
theorem hostExec_cases (i : Instr) (hi : i.isHost = true) (s : State) :
    (i = .init ∧ s.life = .uninit ∧ pinsValid s.params.numGpio s.cfgPins = true ∧
      exec i s = .next { s with pinmap := s.cfgPins, rsQ := false, enQ := false, dQ := 0x00#8, life := .ready }) ∨
    (i = .init ∧ s.life = .uninit ∧ pinsValid s.params.numGpio s.cfgPins = false ∧
      exec i s = .next ({ s with life := .failed }.raise .cfg)) ∨
    (i = .init ∧ s.life ≠ .uninit ∧ exec i s = .next (s.raise .reinit)) ∨
    (i ≠ .init ∧ s.life ≠ .ready ∧ exec i s = .next (s.raise .notInit)) ∨
    (i ≠ .init ∧ s.life = .ready ∧ exec i s = .next s) ∨
    (i ≠ .init ∧ s.life = .ready ∧ ∃ t, Started s t ∧ exec i s = .next t) := by
  by_cases hinit : i = .init
  · subst hinit
    by_cases hu : s.life = .uninit
    · cases hp : pinsValid s.params.numGpio s.cfgPins with
      | true => exact .inl ⟨rfl, hu, rfl, by simp [exec, execInit, hu, hp]⟩
      | false => exact .inr (.inl ⟨rfl, hu, rfl, by simp [exec, execInit, hu, hp]⟩)
    · exact .inr (.inr (.inl ⟨rfl, hu, by simp [exec, execInit, hu]⟩))
  · by_cases hr : s.life = .ready
    · refine .inr (.inr (.inr (.inr ?_)))
      cases i with
      | init => exact absurd rfl hinit
      | cmd b =>
        refine .inr ⟨hinit, hr, _, ⟨s.ctrl, s.mode, false, b, isLongCmd b, fun _ => rfl, rfl⟩, ?_⟩
        simp only [exec, execCmd]
        rw [requireReady_ready hr]
      | data b =>
        refine .inr ⟨hinit, hr, _, ⟨s.ctrl, s.mode, true, b, false, by simp, rfl⟩, ?_⟩
        simp only [exec, execData]
        rw [requireReady_ready hr]
      | clear =>
        refine .inr ⟨hinit, hr, _, ⟨s.ctrl, s.mode, false, 0x01#8, true, fun _ => rfl, rfl⟩, ?_⟩
        simp only [exec, execClear]
        rw [requireReady_ready hr]
      | home =>
        refine .inr ⟨hinit, hr, _, ⟨s.ctrl, s.mode, false, 0x02#8, true, fun _ => rfl, rfl⟩, ?_⟩
        simp only [exec, execHome]
        rw [requireReady_ready hr]
      | setDir v =>
        refine .inr ⟨hinit, hr, _, ⟨s.ctrl, s.mode, false, directionByte v, false, fun _ => rfl, rfl⟩, ?_⟩
        simp only [exec, execSetDir]
        rw [requireReady_ready hr]
      | selectLine n =>
        cases hb : lineBase n with
        | none => exact .inl ⟨hinit, hr, by simp [exec, execSelectLine, requireReady_ready hr, hb]⟩
        | some a =>
          refine .inr ⟨hinit, hr, _, ⟨s.ctrl, s.mode, false, setDdramByte a, false, fun _ => rfl, rfl⟩, ?_⟩
          simp only [exec, execSelectLine]
          rw [requireReady_ready hr]
          simp only [hb]
      | setDisplay v =>
        refine .inr ⟨hinit, hr, _, ⟨CtrlReg.ofByte (setField s.ctrlQ 0x04#8 v), s.mode, false, setField s.ctrlQ 0x04#8 v, false, fun _ => rfl, rfl⟩, ?_⟩
        simp only [exec, execSetDisplay]
        rw [requireReady_ready hr]
        rfl
      | setCursor v =>
        refine .inr ⟨hinit, hr, _, ⟨CtrlReg.ofByte (setField s.ctrlQ 0x02#8 v), s.mode, false, setField s.ctrlQ 0x02#8 v, false, fun _ => rfl, rfl⟩, ?_⟩
        simp only [exec, execSetCursor]
        rw [requireReady_ready hr]
        rfl
      | setBlink v =>
        refine .inr ⟨hinit, hr, _, ⟨CtrlReg.ofByte (setField s.ctrlQ 0x01#8 v), s.mode, false, setField s.ctrlQ 0x01#8 v, false, fun _ => rfl, rfl⟩, ?_⟩
        simp only [exec, execSetBlink]
        rw [requireReady_ready hr]
        rfl
      | setBitMode v =>
        refine .inr ⟨hinit, hr, _, ⟨s.ctrl, ModeReg.ofByte (setField s.modeQ 0x10#8 v), false, setField s.modeQ 0x10#8 v, false, fun _ => rfl, rfl⟩, ?_⟩
        simp only [exec, execSetBitMode]
        rw [requireReady_ready hr]
        rfl
      | setLines v =>
        refine .inr ⟨hinit, hr, _, ⟨s.ctrl, ModeReg.ofByte (setField s.modeQ 0x08#8 v), false, setField s.modeQ 0x08#8 v, false, fun _ => rfl, rfl⟩, ?_⟩
        simp only [exec, execSetLines]
        rw [requireReady_ready hr]
        rfl
      | setFont v =>
        refine .inr ⟨hinit, hr, _, ⟨s.ctrl, ModeReg.ofByte (setField s.modeQ 0x04#8 v), false, setField s.modeQ 0x04#8 v, false, fun _ => rfl, rfl⟩, ?_⟩
        simp only [exec, execSetFont]
        rw [requireReady_ready hr]
        rfl
      | _ => simp [Instr.isHost] at hi
    · refine .inr (.inr (.inr (.inl ⟨hinit, hr, ?_⟩)))
      cases i with
      | init => exact absurd rfl hinit
      | cmd _ | data _ | clear | home | setDir _ | selectLine _ | setDisplay _ | setCursor _ | setBlink _
      | setBitMode _ | setLines _ | setFont _ =>
        simp only [exec, execCmd, execData, execClear, execHome, execSetDir, execSelectLine, execSetDisplay,
          execSetCursor, execSetBlink, execSetBitMode, execSetLines, execSetFont, requireReady_notReady hr]
      | _ => simp [Instr.isHost] at hi

/-- Every outcome of a panel instruction: a latch event with some effect on the panel, and nothing else (R63). -/
theorem panelExec_latch (i : Instr) (hi : i.isHost = false) (s : State) :
    ∃ w f, exec i s = .next (s.latch w f) := by
  cases i <;> first | exact ⟨_, _, rfl⟩ | simp [Instr.isHost] at hi

/-- A host word decodes to a host instruction (R50). -/
theorem decodeHost_isHost {w : HostWord} {i : Instr} (h : decodeHost w = .instr i) : i.isHost = true := by
  unfold decodeHost argNone argBool at h
  dsimp only at h
  repeat' split at h
  all_goals first
    | (cases h; rfl)
    | cases h

/-- A bus word decodes to a panel instruction (R54). -/
theorem decodePanel_isPanel {w : BusWord} {i : Instr} (h : decodePanel w = .instr i) : i.isHost = false := by
  unfold decodePanel decodeInstrByte at h
  repeat' split at h
  all_goals first
    | (cases h; rfl)
    | cases h

/-- At a latch edge the block's registers are untouched, and the panel changes by some effect (R63). -/
theorem latchLines_latch (s : State) : ∃ w f, latchLines s = .next (s.latch w f) := by
  unfold latchLines
  cases h : decodePanel s.busWord with
  | instr i => exact panelExec_latch i (decodePanel_isPanel h) s
  | illegal r => exact ⟨_, _, rfl⟩

/-- A step is an edge and then the ports of the next one. -/
theorem step_eq_next {s t : State} : step s = .next t ↔ ∃ u, clockEdge s = .next u ∧ t = u.afterEdge :=
  mapNext_eq_next

/-- Everything a clock edge can do (R58). -/
theorem clockEdge_cases {s u : State} (h : clockEdge s = .next u) :
    (s.ports.rst = true ∧ u = s.doReset) ∨
    (s.ports.rst = false ∧ s.phase = .idle ∧ s.ports.reqValid = false ∧ u = s) ∨
    (s.ports.rst = false ∧ s.phase = .idle ∧ s.ports.reqValid = true ∧ dispatchWord s.ports.reqWord s = .next u) ∨
    (s.ports.rst = false ∧ s.phase ≠ .idle ∧ 1 < s.cnt ∧ u = s.countDown) ∨
    (s.ports.rst = false ∧ s.phase ≠ .idle ∧ s.cnt ≤ 1 ∧ advance s = .next u) := by
  unfold clockEdge at h
  split at h
  · exact .inl ⟨‹_›, by cases h; rfl⟩
  · rename_i hr
    have hr : s.ports.rst = false := by simpa using hr
    split at h
    · split at h
      · exact .inr (.inr (.inl ⟨hr, ‹_›, ‹_›, h⟩))
      · rename_i hi hv
        exact .inr (.inl ⟨hr, hi, by simpa using hv, by cases h; rfl⟩)
    · split at h
      · exact .inr (.inr (.inr (.inl ⟨hr, ‹_›, ‹_›, by cases h; rfl⟩)))
      · exact .inr (.inr (.inr (.inr ⟨hr, ‹_›, by omega, h⟩)))

/-- Everything the end of a phase can do (R62). -/
theorem advance_cases {s u : State} (hp : s.phase ≠ .idle) (h : advance s = .next u) :
    (s.phase = .setup ∧ u = s.raiseEnable) ∨
    (s.phase = .high ∧ ∃ w f, u = (s.latch w f).lowerEnable) ∨
    (s.phase = .post ∧ u = s.endPost) ∨
    (s.phase = .long ∧ u = s.endLong) := by
  cases hs : s.phase with
  | idle => exact absurd hs hp
  | setup => simp only [advance, hs] at h; cases h; exact .inl ⟨rfl, rfl⟩
  | high =>
    obtain ⟨w, f, hl⟩ := latchLines_latch s
    simp only [advance, hs, hl, mapNext_next] at h
    cases h
    exact .inr (.inl ⟨rfl, w, f, rfl⟩)
  | post => simp only [advance, hs] at h; cases h; exact .inr (.inr (.inl ⟨rfl, rfl⟩))
  | long => simp only [advance, hs] at h; cases h; exact .inr (.inr (.inr ⟨rfl, rfl⟩))

/-- Everything the dispatch of a word can do (R59): an illegal word raises, a legal one runs as an instruction of
the host language. -/
theorem dispatch_cases (w : HostWord) (s : State) :
    (∃ r, decodeHost w = .illegal r ∧ dispatchWord w s = .next (s.raise .illegal)) ∨
    (∃ i, decodeHost w = .instr i ∧ i.isHost = true ∧ dispatchWord w s = exec i s) := by
  unfold dispatchWord
  cases h : decodeHost w with
  | instr i => exact .inr ⟨i, rfl, decodeHost_isHost h, rfl⟩
  | illegal r => exact .inl ⟨r, rfl, rfl⟩

/-- A free panel state claims no byte of the panel's memories (log 13). -/
theorem anyPanel_wf (n : Nat) : (anyPanel n).wf = true := by
  unfold anyPanel
  cases Config.freePanel n <;> rfl

/-- A run of no edges. -/
@[simp] theorem run_zero (s : State) : run 0 s = .next s := rfl

/-- A run, its first edge taken apart. -/
theorem run_succ {s t : State} {k : Nat} (h : step s = .next t) : run (k + 1) s = run k t := by
  simp [run, h]

end Sys2Proof.Laws
end

