-- ==== Sys2Proof/Laws/Panel.lean ====
section
/-! SUPPORT. What each effect on the panel keeps: the canonical form of its memories, a panel of which nothing is known;
and what every latch makes of a panel in 4-bit mode or lost. -/

namespace Sys2Proof.Laws

open Sys2Proof.Machine

/-- An effect on the panel that keeps the canonical form of its memories. -/
def Keeps (f : Panel → Panel) : Prop := ∀ p, p.wf = true → (f p).wf = true

theorem unstated_keeps (n : Nat) : Keeps (Panel.unstated n) := by
  intro p h
  cases p <;> first | exact anyPanel_wf n | exact h

theorem onClearDisplay_keeps (n : Nat) : Keeps (Panel.onClearDisplay n) := by
  intro p h
  cases p with
  | known r =>
    simp only [Panel.wf, Bool.and_eq_true] at h
    simp [Panel.onClearDisplay, Panel.wf, nil_wf, h.1.2, h.2]
  | _ => rfl

theorem onReturnHome_keeps : Keeps Panel.onReturnHome := by
  intro p h
  cases p <;> exact h

theorem onSetDir_keeps (d : WriteDir) : Keeps (Panel.onSetDir d) := by
  intro p h
  cases p <;> exact h

theorem onDisplayControl_keeps (d c b : Bool) : Keeps (Panel.onDisplayControl d c b) := by
  intro p h
  cases p with
  | known r => exact h
  | _ => rfl

theorem onFunctionSet_keeps (n : Nat) (dl l f : Bool) : Keeps (Panel.onFunctionSet n dl l f) := by
  intro p h
  unfold Panel.onFunctionSet
  split
  · split
    · exact unstated_keeps n p h
    · rfl
  · split <;> rfl

theorem onSetAddr_keeps (a : PanelAddr) : Keeps (Panel.onSetAddr a) := by
  intro p h
  cases p <;> exact h

theorem onDataWrite_keeps (n : Nat) (b : Byte) : Keeps (Panel.onDataWrite n b) := by
  intro p h
  cases p with
  | known r =>
    simp only [Panel.wf, Bool.and_eq_true] at h
    obtain ⟨⟨⟨h1, h2⟩, h3⟩, h4⟩ := h
    cases ha : r.addr with
    | ddram a =>
      cases hd : r.hasDdram a with
      | true =>
        have := all_write r.ddram a.toNat b (fun x => decide (x < 128)) h2 (by simpa using a.isLt)
        simp only [Panel.onDataWrite, ha, hd, if_true, Panel.wf, Bool.and_eq_true]
        exact ⟨⟨⟨write_wf _ _ _ h1, this⟩, h3⟩, h4⟩
      | false =>
        simp only [Panel.onDataWrite, ha, hd]
        exact anyPanel_wf n
    | cgram a =>
      have := all_write r.cgram a.toNat b (fun x => decide (x < 64)) h4 (by simpa using a.isLt)
      simp only [Panel.onDataWrite, ha, Panel.wf, Bool.and_eq_true]
      exact ⟨⟨⟨h1, h2⟩, write_wf _ _ _ h3⟩, this⟩
  | _ => exact h

/-- A panel in 4-bit mode, or one that is lost: every latch leaves it lost (R116). -/
def Stuck (p : Panel) : Prop := p = .lost ∨ ∃ l f, p = .fourBit l f

theorem latched_stuck {p : Panel} (h : Stuck p) (f : Panel → Panel) : p.latched f = .lost := by
  obtain rfl | ⟨l, g, rfl⟩ := h <;> rfl

/-- On every other panel a latch is its effect. -/
theorem latched_effect {p : Panel} (h : ¬Stuck p) (f : Panel → Panel) : p.latched f = f p := by
  cases p with
  | lost => exact absurd (.inl rfl) h
  | fourBit l g => exact absurd (.inr ⟨l, g, rfl⟩) h
  | _ => rfl

theorem latched_keeps {f : Panel → Panel} (hf : Keeps f) : Keeps (Panel.latched f) := by
  intro p h
  cases p <;> first | rfl | exact hf _ h

/-- The panel after a latch event whose effect keeps the canonical form. -/
theorem latch_panel_keeps {s : State} {w : BusWord} {f : Nat → Panel → Panel} (hf : ∀ n, Keeps (f n)) :
    s.panel.wf = true → (s.latch w f).panel.wf = true := by
  intro h
  rw [latch_panel]
  split
  · exact latched_keeps (hf _) _ h
  · rfl

/-- A latch event leaves a panel lost that is in 4-bit mode or lost (R116). -/
theorem latch_panel_stuck {s : State} (h : Stuck s.panel) (w : BusWord) (f : Nat → Panel → Panel) :
    (s.latch w f).panel = .lost := by
  rw [latch_panel, latched_stuck h, ite_self]

/-- Every panel instruction is a latch event whose effect keeps the canonical form. -/
theorem panelExec_keeps (i : Instr) (hi : i.isHost = false) (s : State) :
    ∃ w f, (∀ n, Keeps (f n)) ∧ exec i s = .next (s.latch w f) := by
  cases i with
  | clearDisplay => exact ⟨_, _, onClearDisplay_keeps, rfl⟩
  | returnHome => exact ⟨_, _, fun _ => onReturnHome_keeps, rfl⟩
  | writeLeft => exact ⟨_, _, fun _ => onSetDir_keeps _, rfl⟩
  | writeRight => exact ⟨_, _, fun _ => onSetDir_keeps _, rfl⟩
  | shiftLeft => exact ⟨_, _, unstated_keeps, rfl⟩
  | shiftRight => exact ⟨_, _, unstated_keeps, rfl⟩
  | displayControl d c b => exact ⟨_, _, fun _ => onDisplayControl_keeps d c b, rfl⟩
  | functionSet dl n f => exact ⟨_, _, fun k => onFunctionSet_keeps k dl n f, rfl⟩
  | setCgram a => exact ⟨_, _, fun _ => onSetAddr_keeps _, rfl⟩
  | setDdram a => exact ⟨_, _, fun _ => onSetAddr_keeps _, rfl⟩
  | dataWrite b => exact ⟨_, _, fun k => onDataWrite_keeps k b, rfl⟩
  | _ => simp [Instr.isHost] at hi

/-- What a latch edge leaves of the panel keeps the canonical form. -/
theorem latchLines_keeps (s : State) : ∃ w f, (∀ n, Keeps (f n)) ∧ latchLines s = .next (s.latch w f) := by
  unfold latchLines
  cases h : decodePanel s.busWord with
  | instr i => exact panelExec_keeps i (decodePanel_isPanel h) s
  | illegal r => exact ⟨_, _, unstated_keeps, rfl⟩

/-- Once its lines are no longer driven, nothing is known of the panel. -/
theorem undriven_blank (p : Panel) : p.undriven.blank := by
  cases p <;> first | exact .inl rfl | exact .inr rfl

/-- After a reset edge nothing is known of the panel (R118, R119). -/
theorem atReset_blank (ph : Phase) (p : Panel) : (p.atReset ph).blank := by
  unfold Panel.atReset
  split
  · exact undriven_blank p
  · exact .inr rfl

/-- A blank panel has its memories in canonical form. -/
theorem blank_wf {p : Panel} (h : p.blank) : p.wf = true := by
  obtain rfl | rfl := h <;> rfl

/-- A second clear changes nothing of the panel (R38, R74). -/
theorem latched_clear_idem (n m : Nat) (p : Panel) :
    (p.latched (Panel.onClearDisplay n)).latched (Panel.onClearDisplay m) = p.latched (Panel.onClearDisplay n) := by
  cases p with
  | known r => cases h : Config.clearDir <;> simp [Panel.latched, Panel.onClearDisplay, h]
  | displaySet l f d c b => cases h : Config.clearDir <;> simp [Panel.latched, Panel.onClearDisplay, h]
  | _ => rfl

end Sys2Proof.Laws
end

