-- ==== Sys2Proof/Laws/PerInstr.lean ====
section
/-! SUPPORT. Statements about every instruction as syntax, made instruction by instruction. -/

namespace Sys2Proof.Laws.EncodesLegally

/-- The word that encodes the instruction belongs to its language and is a legal word of it: no clause of R49 holds
of a host word, and a bus word matches a format of R52. -/
def Statement (i : Instr) : Prop :=
  match encode i with
  | .host w => i.isHost = true ∧ hostWordLegal w = true
  | .panel w => i.isHost = false ∧ busWordNamed w = true

theorem init : Statement .init := ⟨rfl, by decide⟩
theorem cmd (b : Byte) : Statement (.cmd b) := by
  refine ⟨rfl, ?_⟩
  exact (by decide : ∀ b : Byte, hostWordLegal (hostWord 0x2#4 b) = true) b
theorem data (b : Byte) : Statement (.data b) := by
  refine ⟨rfl, ?_⟩
  exact (by decide : ∀ b : Byte, hostWordLegal (hostWord 0x3#4 b) = true) b
theorem clear : Statement .clear := ⟨rfl, by decide⟩
theorem home : Statement .home := ⟨rfl, by decide⟩
theorem setDir (v : Bool) : Statement (.setDir v) := by cases v <;> exact ⟨rfl, by decide⟩
theorem selectLine (n : Byte) : Statement (.selectLine n) := by
  refine ⟨rfl, ?_⟩
  exact (by decide : ∀ n : Byte, hostWordLegal (hostWord 0x7#4 n) = true) n
theorem setDisplay (v : Bool) : Statement (.setDisplay v) := by cases v <;> exact ⟨rfl, by decide⟩
theorem setCursor (v : Bool) : Statement (.setCursor v) := by cases v <;> exact ⟨rfl, by decide⟩
theorem setBlink (v : Bool) : Statement (.setBlink v) := by cases v <;> exact ⟨rfl, by decide⟩
theorem setBitMode (v : Bool) : Statement (.setBitMode v) := by cases v <;> exact ⟨rfl, by decide⟩
theorem setLines (v : Bool) : Statement (.setLines v) := by cases v <;> exact ⟨rfl, by decide⟩
theorem setFont (v : Bool) : Statement (.setFont v) := by cases v <;> exact ⟨rfl, by decide⟩
theorem clearDisplay : Statement .clearDisplay := ⟨rfl, by decide⟩
theorem returnHome : Statement .returnHome := ⟨rfl, by decide⟩
theorem writeLeft : Statement .writeLeft := ⟨rfl, by decide⟩
theorem shiftRight : Statement .shiftRight := ⟨rfl, by decide⟩
theorem writeRight : Statement .writeRight := ⟨rfl, by decide⟩
theorem shiftLeft : Statement .shiftLeft := ⟨rfl, by decide⟩
theorem displayControl (d c b : Bool) : Statement (.displayControl d c b) := by
  cases d <;> cases c <;> cases b <;> exact ⟨rfl, by decide⟩
theorem functionSet (dl n f : Bool) : Statement (.functionSet dl n f) := by
  cases dl <;> cases n <;> cases f <;> exact ⟨rfl, by decide⟩
theorem setCgram (a : BitVec 6) : Statement (.setCgram a) := ⟨rfl, by revert a; decide⟩
theorem setDdram (a : BitVec 7) : Statement (.setDdram a) := ⟨rfl, by revert a; decide⟩
theorem dataWrite (b : Byte) : Statement (.dataWrite b) := by
  refine ⟨rfl, ?_⟩
  exact (by decide : ∀ b : Byte, busWordNamed (busWord true b) = true) b

end Sys2Proof.Laws.EncodesLegally
end

