-- ==== Sys2Proof/Tests/Slice0.lean ====
section
/-! SUPPORT. Tests of the model against the document's worked examples (`95_test_vectors.md`, cited by their
identifiers), the refusals of each check on raw data, and a witness for the hypotheses of every statement. -/

namespace Sys2Proof.Tests

open Sys2Proof.Machine

/-! ## Helpers -/

/-- The pins of S0: RS on 2, EN on 3, D0 to D7 on 4 to 11. -/
def pins2 : PinAssignment :=
  { rs := 2, en := 3, d0 := 4, d1 := 5, d2 := 6, d3 := 7, d4 := 8, d5 := 9, d6 := 10, d7 := 11 }

/-- S_RESET with an INIT request on the port and the given pins. -/
def initWith (p : PinAssignment) : State :=
  { State.reset with ports := { rst := false, reqValid := true, reqWord := 0x100#12, cfgPin := p } }

/-- S0 of the test vectors. -/
def s0 : State := { State.reset with life := .ready, pinmap := pins2 }

/-- S0 with a word on the port. -/
def s0With (w : HostWord) : State := s0.offer w

/-- The state after a failed INIT (IN-3). -/
def failed : State := { State.reset with life := .failed, errCfg := true }

/-- S0 with `CTRL` and `MODE` set. -/
def s0Regs (c m : Byte) : State := (s0.writeCtrl c).writeMode m

/-- A panel that has run the initialization sequence. -/
def regs0 : PanelRegs :=
  { display := true, cursor := true, blink := true, twoLines := true, bigFont := false, dir := .right
    addr := .ddram 0x40#7, ddram := [(0x00, 0x48#8)], cgram := [] }

/-- S0 with a known panel. -/
def k0 : State := { s0 with panel := .known regs0 }

/-- S0 in the middle of a transfer. -/
def inPhase (p : Phase) (cnt : Nat) (long : Bool) : State :=
  { s0 with phase := p, cnt := cnt, xferLong := long, enQ := decide (p = .high), dQ := 0x41#8 }

/-- The state in an answer. -/
def after : Result → State
  | .next s => s
  | .fault _ => State.reset
  | .refused _ => State.reset

/-! ## Decoding: words written out from R47 and R52 -/

theorem test_decode_host_words :
    decodeHost 0b000100000000#12 = .instr .init ∧
    decodeHost 0b001010100101#12 = .instr (.cmd 0xA5#8) ∧
    decodeHost 0b001101000001#12 = .instr (.data 0x41#8) ∧
    decodeHost 0b010000000000#12 = .instr .clear ∧
    decodeHost 0b010100000000#12 = .instr .home ∧
    decodeHost 0b011000000000#12 = .instr (.setDir false) ∧
    decodeHost 0b011100000010#12 = .instr (.selectLine 2#8) ∧
    decodeHost 0b100000000001#12 = .instr (.setDisplay true) ∧
    decodeHost 0b100100000001#12 = .instr (.setCursor true) ∧
    decodeHost 0b101000000000#12 = .instr (.setBlink false) ∧
    decodeHost 0b101100000000#12 = .instr (.setBitMode false) ∧
    decodeHost 0b110000000001#12 = .instr (.setLines true) ∧
    decodeHost 0b110100000001#12 = .instr (.setFont true) := by decide

theorem test_decode_panel_words :
    decodePanel 0b000000001#9 = .instr .clearDisplay ∧
    decodePanel 0b000000010#9 = .instr .returnHome ∧
    decodePanel 0b000000100#9 = .instr .writeLeft ∧
    decodePanel 0b000000101#9 = .instr .shiftRight ∧
    decodePanel 0b000000110#9 = .instr .writeRight ∧
    decodePanel 0b000000111#9 = .instr .shiftLeft ∧
    decodePanel 0b000001100#9 = .instr (.displayControl true false false) ∧
    decodePanel 0b000110100#9 = .instr (.functionSet true false true) ∧
    decodePanel 0b001000001#9 = .instr (.setCgram 0x01#6) ∧
    decodePanel 0b011000000#9 = .instr (.setDdram 0x40#7) ∧
    decodePanel 0b101001000#9 = .instr (.dataWrite 0x48#8) := by decide

/-- ENC-1, ENC-3, ENC-8, ENC-9, ENC-11, ENC-14, ENC-16, ENC-18. -/
theorem test_decode_illegal :
    decodeHost 0x000#12 = .illegal .reservedOpcode ∧ decodeHost 0x101#12 = .illegal .nonzeroArg ∧
    decodeHost 0x480#12 = .illegal .nonzeroArg ∧ decodeHost 0x5FF#12 = .illegal .nonzeroArg ∧
    decodeHost 0x602#12 = .illegal .reservedArgBits ∧ decodeHost 0x8FF#12 = .illegal .reservedArgBits ∧
    decodeHost 0xC03#12 = .illegal .reservedArgBits ∧ decodeHost 0xE5A#12 = .illegal .reservedOpcode ∧
    decodeHost 0xFFF#12 = .illegal .reservedOpcode := by decide

/-- R54: the first and the last of each group of unnamed bytes. -/
theorem test_decode_unnamed :
    decodePanel 0x000#9 = .illegal .unnamedByte ∧ decodePanel 0x003#9 = .illegal .unnamedByte ∧
    decodePanel 0x010#9 = .illegal .unnamedByte ∧ decodePanel 0x01F#9 = .illegal .unnamedByte ∧
    decodePanel 0x021#9 = .illegal .unnamedByte ∧ decodePanel 0x03F#9 = .illegal .unnamedByte := by decide

/-- Both languages of the opcode table, and the number the two share (log 6). -/
theorem test_table_words :
    decodeTableWord 16 0x341 = some (.data 0x41#8) ∧ decodeTableWord 16 0x080 = some (.setDdram 0#7) ∧
    decodeTableWord 16 0x101 = some (.dataWrite 0x01#8) ∧ decodeTableWord 16 0x100 = some .init ∧
    decodeTableWord 9 0x100 = some (.dataWrite 0x00#8) ∧ decodeTableWord 16 0x010 = none ∧
    decodeTableWord 16 0xE00 = none := by decide

/-! ## The checks on raw data, with ill-formed terms that each refuses -/

theorem test_params_reference : Params.reference.ok = true := by decide

theorem test_params_refused :
    ({ Params.reference with clkHz := 0 } : Params).ok = false ∧
    ({ Params.reference with nSu := 0 } : Params).ok = false ∧
    ({ Params.reference with nSu := 1 } : Params).ok = false ∧
    ({ Params.reference with nPw := 1 } : Params).ok = false ∧
    ({ Params.reference with nPost := 99 } : Params).ok = false ∧
    ({ Params.reference with nLong := 1999 } : Params).ok = false ∧
    ({ Params.reference with numGpio := 9 } : Params).ok = false ∧
    ({ Params.reference with numGpio := 33 } : Params).ok = false ∧
    ({ Params.reference with cntW := 10 } : Params).ok = false := by decide

theorem test_host_words_refused :
    opReserved 0x000#12 = true ∧ opReserved 0xF00#12 = true ∧ argNotNone 0x101#12 = true ∧
    argNotNone 0x5FF#12 = true ∧ argNotBool 0x602#12 = true ∧ argNotBool 0xD80#12 = true ∧
    hostWordLegal 0x000#12 = false ∧ hostWordLegal 0x101#12 = false ∧ hostWordLegal 0x602#12 = false ∧
    hostWordLegal 0x601#12 = true := by decide

theorem test_bus_words_refused :
    byteUnnamed 0x00#8 = true ∧ byteUnnamed 0x03#8 = true ∧ byteUnnamed 0x1F#8 = true ∧ byteUnnamed 0x22#8 = true ∧
    busWordNamed 0x003#9 = false ∧ busWordNamed 0x103#9 = true := by decide

theorem test_pin_width_refused :
    pins2.fits 5 = true ∧ ({ pins2 with d7 := 32 } : PinAssignment).fits 5 = false := by decide

/-! ## One step, against the test vectors -/

/-- BE-3: the state after e0, e2, e4 and e104. -/
theorem test_be3_accept :
    let t := after (step (s0With 0x341#12))
    t.phase = .setup ∧ t.cnt = 2 ∧ t.rsQ = true ∧ t.enQ = false ∧ t.dQ = 0x41#8 ∧ t.reqReady = false ∧
      t.status = 0x03#8 := by decide

theorem test_be3_enable_rises :
    let t := after (step (inPhase .setup 1 false))
    t.phase = .high ∧ t.cnt = 2 ∧ t.enQ = true := by decide

theorem test_be3_latch :
    let t := after (step { inPhase .high 1 false with rsQ := true, edge := 4 })
    t.phase = .post ∧ t.cnt = 100 ∧ t.enQ = false ∧ t.rsQ = true ∧ t.trace = [⟨4, true, 0x41#8⟩] := ⟨rfl, rfl, rfl, rfl, rfl⟩

theorem test_be3_end :
    let t := after (step { inPhase .post 1 false with rsQ := true })
    t.phase = .idle ∧ t.cnt = 1 ∧ t.rsQ = false ∧ t.dQ = 0x41#8 ∧ t.reqReady = true ∧ t.status = 0x01#8 := by decide

/-- BE-3: the pins after e2. -/
theorem test_be3_routing :
    let t := { inPhase .high 2 false with rsQ := true }
    t.gpioO 2 = true ∧ t.gpioO 3 = true ∧ t.gpioO 4 = true ∧ t.gpioO 10 = true ∧ t.gpioO 5 = false ∧
      t.gpioO 11 = false ∧ t.gpioOe 11 = true ∧ t.gpioOe 12 = false ∧ t.gpioPue 1 = false := by decide

/-- BE-4: POST of a long transfer ends in LONG. -/
theorem test_be4_long :
    let t := after (step (inPhase .post 1 true))
    t.phase = .long ∧ t.cnt = 2000 ∧ t.status = 0x03#8 := by decide

/-- IN-1, IN-3, IN-4, IN-5. -/
theorem test_in_outcomes :
    (after (step (initWith pins2))).life = .ready ∧ (after (step (initWith pins2))).pinmap = pins2 ∧
    (after (step (initWith { pins2 with rs := 3 }))).status = 0x04#8 ∧
    (after (step (initWith { pins2 with d7 := 30 }))).life = .failed ∧
    (after (step (initWith { pins2 with d7 := 29 }))).life = .ready := by decide

/-- R16: a `cfg_pin` port of 5 wires carries 33 as 1, so an identifier of 32 or more cannot be what makes INIT fail. -/
theorem test_in_wires :
    (after (step (initWith { pins2 with d7 := 33 }))).pinmap = { pins2 with d7 := 1 } ∧
    (after (step (initWith { pins2 with d7 := 33 }))).life = .ready ∧
    (after (step (initWith { pins2 with d7 := 34 }))).life = .failed := by decide

/-- IN-9, IN-10: INIT again. -/
theorem test_in_reinit :
    (after (step (s0With 0x100#12))).status = 0x11#8 ∧ (after (step (failed.offer 0x100#12))).status = 0x14#8 := by decide

/-- BE-2, BE-1: CMD. -/
theorem test_cmd :
    (after (exec (.cmd 0x03#8) s0)).xferLong = true ∧ (after (exec (.cmd 0x81#8) s0)).xferLong = false ∧
    (after (exec (.cmd 0xA5#8) s0)).dQ = 0xA5#8 ∧ (after (exec (.cmd 0x0F#8) s0)).ctrlQ = 0x08#8 := by decide

/-- W2: DATA of 0x01 is not long. -/
theorem test_data :
    (after (exec (.data 0x01#8) s0)).xferLong = false ∧ (after (exec (.data 0x01#8) s0)).rsQ = true := by decide

/-- CL-1 to CL-5. -/
theorem test_plain_commands :
    (after (exec .clear s0)).busWord = 0x001#9 ∧ (after (exec .home (s0Regs 0x0F#8 0x38#8))).busWord = 0x002#9 ∧
    (after (exec .home (s0Regs 0x0F#8 0x38#8))).ctrlQ = 0x0F#8 ∧ (after (exec .home s0)).xferLong = true ∧
    (after (exec (.setDir true) s0)).busWord = 0x006#9 ∧ (after (exec (.setDir false) s0)).busWord = 0x004#9 ∧
    (after (exec (.selectLine 1#8) s0)).busWord = 0x080#9 ∧
    (after (exec (.selectLine 2#8) s0)).busWord = 0x0C0#9 := by decide

/-- W11, CL-18: an invalid line is a no-op. -/
theorem test_select_no_line :
    after (exec (.selectLine 0#8) s0) = s0 ∧ after (exec (.selectLine 3#8) s0) = s0 := by decide

/-- CL-6 to CL-10, CL-17. -/
theorem test_control_flags :
    (after (exec (.setDisplay true) s0)).ctrlQ = 0x0C#8 ∧
    (after (exec (.setCursor false) (s0Regs 0x0F#8 0x30#8))).busWord = 0x00D#9 ∧
    (after (exec (.setBlink true) (s0Regs 0x0A#8 0x30#8))).ctrlQ = 0x0B#8 ∧
    (after (exec (.setBlink true) s0)).busWord = 0x009#9 ∧
    (after (exec (.setDisplay false) (s0Regs 0x0F#8 0x30#8))).ctrlQ = 0x0B#8 := by decide

/-- CL-11 to CL-14. -/
theorem test_mode_flags :
    (after (exec (.setBitMode false) (s0Regs 0x08#8 0x38#8))).modeQ = 0x28#8 ∧
    (after (exec (.setLines false) (s0Regs 0x08#8 0x3C#8))).busWord = 0x034#9 ∧
    (after (exec (.setFont true) s0)).modeQ = 0x34#8 ∧
    (after (exec (.setLines true) s0)).modeQ = 0x38#8 := by decide

/-- EX-1, EX-3, EX-5, EX-7, EX-10. -/
theorem test_errors :
    (after (step (State.reset.offer 0x201#12))).status = 0x08#8 ∧
    (after (step (State.reset.offer 0x802#12))).status = 0x20#8 ∧
    (after (step (s0With 0x101#12))).status = 0x21#8 ∧
    (after (step (failed.offer 0x341#12))).status = 0x0C#8 ∧
    (after (step ({ s0 with errIllegal := true }.offer 0xF00#12))).status = 0x21#8 := by decide

/-- RST-1, RST-2, RST-4. -/
theorem test_reset_edge :
    let t := after (step { inPhase .high 1 false with
      errIllegal := true, ports := { rst := true, reqValid := true, reqWord := 0x100#12, cfgPin := pins2 } })
    t.status = 0x00#8 ∧ t.ctrlQ = 0x08#8 ∧ t.modeQ = 0x30#8 ∧ t.lcdOe = false ∧ t.lcdEn = false ∧ t.trace = [] ∧
      t.life = .uninit ∧ t.pinmap = pins2 := by decide

/-- RST-2, U4: a reset during a transfer leaves a panel of which no claim can be made; of an idle block, one that is
unknown. -/
theorem test_reset_panel :
    let quiet := { Ports.quiet with rst := true }
    (after (step { inPhase .high 1 false with panel := .known regs0, ports := quiet })).panel = .lost ∧
    (after (step { k0 with ports := quiet })).panel = .unknown := by decide

/-- R85, R86: home. -/
theorem test_panel_home :
    (after (exec .clearDisplay k0)).panel =
      .known { regs0 with addr := .ddram Config.homeAddr, dir := Config.clearDir.getD .right, ddram := [] } ∧
    (after (exec .returnHome k0)).panel = .known { regs0 with addr := .ddram Config.homeAddr } := ⟨rfl, rfl⟩

/-- R87, R88, R91, R93, R94. -/
theorem test_panel_settings :
    (after (exec .writeLeft k0)).panel = .known { regs0 with dir := .left } ∧
    (after (exec .writeRight k0)).panel = .known regs0 ∧
    (after (exec (.displayControl true false true) k0)).panel = .known { regs0 with cursor := false } ∧
    (after (exec (.setCgram 0x3F#6) k0)).panel = .known { regs0 with addr := .cgram 0x3F#6 } ∧
    (after (exec (.setDdram 0x00#7) k0)).panel = .known { regs0 with addr := .ddram 0x00#7 } := ⟨rfl, rfl, rfl, rfl, rfl⟩

/-- R89, R90, R92: the events are recorded whatever the panel does. -/
theorem test_panel_events :
    (after (exec .shiftLeft s0)).trace = [⟨0, false, 0x07#8⟩] ∧ (after (exec .shiftRight s0)).trace = [⟨0, false, 0x05#8⟩] ∧
    (after (exec (.functionSet true true false) s0)).trace = [⟨0, false, 0x38#8⟩] ∧
    (after (exec (.functionSet false true false) k0)).panel = .fourBit true false ∧
    (after (exec (.dataWrite 0x41#8) { k0 with panel := .fourBit true false })).panel = .lost := ⟨rfl, rfl, rfl, rfl, rfl⟩

/-- R95: a byte at the base of line 2. -/
theorem test_panel_data_write :
    (after (exec (.dataWrite 0x69#8) k0)).panel =
      .known { regs0 with ddram := [(0x00, 0x48#8), (0x40, 0x69#8)], addr := .ddram (Config.advanceDdram .right 0x40#7) } :=
  rfl

/-- R56, R57, W5: the assembler and write_string. -/
theorem test_assembler :
    assembleLine "SET_FONT 5x11 ; big".toList = some [0xD01#12] ∧ assembleLine "cmd 0x2A".toList = some [0x22A#12] ∧
    assembleLine "DATA 'A'".toList = some [0x341#12] ∧ assembleLine ".word 0xE00".toList = some [0xE00#12] ∧
    assembleLine "SET_FONT 5x9".toList = none ∧
    assembleLine "write_string \"AB\\nCD\"".toList = some [0x341#12, 0x342#12, 0x702#12, 0x343#12, 0x344#12] := by decide

/-- A word placed by `withFetchWord` runs at the very next step, after reset (log 7). -/
theorem test_fetch_word :
    (after (step (State.reset.withFetchWord 16 0x100))).life = .ready ∧
    (after (step (State.reset.withFetchWord 16 0x341))).errNotInit = true ∧
    (after (step (State.reset.withFetchWord 16 0x148))).trace = [⟨0, true, 0x48#8⟩] := ⟨rfl, rfl, rfl⟩

/-! ## Witnesses: states and operands that meet the hypotheses of the statements, clause by clause -/

/-- No reset comes from a host that has scheduled nothing. -/
theorem s0With_noReset (w : HostWord) (k : Nat) : (s0With w).noResetFor k := by
  intro q hq
  have h : q ∈ (s0With w).inputs := List.mem_of_mem_take hq
  simp only [State.inputs, List.mem_cons] at h
  rcases h with h | h
  · subst h; rfl
  · exact absurd h (List.not_mem_nil)

theorem witness_EncodeInvertsDecode :
    decode (.host 0xD01#12) = .instr (.setFont true) ∧ decode (.panel 0x1FF#9) = .instr (.dataWrite 0xFF#8) := by decide

/-- One word a clause of R49, at the ends of its range. -/
theorem witness_IllegalWordsOnlyRaise :
    ∀ w ∈ [0x000#12, 0x0FF#12, 0xE00#12, 0xFFF#12, 0x101#12, 0x5FF#12, 0x602#12, 0x6FF#12, 0x802#12, 0xDFF#12],
      (∃ r, decodeHost w = .illegal r) ∧ (s0With w).accepts ∧ (s0With w).ports.reqWord = w := by
  intro w h
  simp only [List.mem_cons, List.not_mem_nil, or_false] at h
  rcases h with h | h | h | h | h | h | h | h | h | h <;> subst h <;> exact ⟨⟨_, rfl⟩, ⟨rfl, rfl, rfl⟩, rfl⟩

/-- One state a clause of R58. -/
theorem witness_ClockStep :
    { s0 with ports := { Ports.quiet with rst := true } }.ports.rst = true ∧
    (s0With 0x400#12).accepts ∧
    (s0.ports.rst = false ∧ s0.phase = .idle ∧ s0.ports.reqValid = false) ∧
    ((inPhase .post 2 false).ports.rst = false ∧ (inPhase .post 2 false).phase ≠ .idle ∧ 1 < (inPhase .post 2 false).cnt) ∧
    ((inPhase .post 1 false).ports.rst = false ∧ (inPhase .post 1 false).phase ≠ .idle ∧ (inPhase .post 1 false).cnt ≤ 1) :=
  ⟨rfl, ⟨rfl, rfl, rfl⟩, by decide, by decide, by decide⟩

theorem witness_AcceptedRequestExecutes :
    (s0With 0x400#12).accepts ∧ decodeHost (s0With 0x400#12).ports.reqWord = .instr .clear := ⟨⟨rfl, rfl, rfl⟩, rfl⟩

theorem witness_LatchEdgeExecutes :
    let s := s0.onLines 0x0C0#9
    s.ports.rst = false ∧ s.phase = .high ∧ s.cnt ≤ 1 ∧ decodePanel s.busWord = .instr (.setDdram 0x40#7) := by decide

theorem witness_ResetValues : { s0 with ports := { Ports.quiet with rst := true } }.ports.rst = true := rfl

/-- The ends of all phases, the counter at 1 and at 0. -/
theorem witness_PhaseEnds :
    ∀ n ≤ 1, ∀ p ∈ [Phase.setup, .high, .post, .long], ∀ l : Bool,
      (inPhase p n l).ports.rst = false ∧ (inPhase p n l).cnt ≤ 1 ∧ (inPhase p n l).phase = p ∧
        (inPhase p n l).xferLong = l := by
  intro n hn p _ l
  exact ⟨rfl, hn, rfl, rfl⟩

theorem witness_LatchEventsAtEnableFall :
    (∃ t, step (inPhase .high 1 false) = .next t) ∧ (∃ t, step (inPhase .high 2 false) = .next t) ∧
    ((inPhase .high 1 false).ports.rst = false ∧ (inPhase .high 1 false).phase = .high ∧ (inPhase .high 1 false).cnt ≤ 1) ∧
    ¬((inPhase .high 2 false).ports.rst = false ∧ (inPhase .high 2 false).phase = .high ∧ (inPhase .high 2 false).cnt ≤ 1) :=
  ⟨⟨_, rfl⟩, ⟨_, rfl⟩, by decide, by decide⟩

theorem witness_BusyBlockIgnoresRequests : (inPhase .setup 2 false).phase ≠ .idle := by decide

/-- The six changes of phase. -/
theorem witness_PhasesInOrder :
    (∃ t, step (s0With 0x701#12) = .next t ∧ t.phase = .setup) ∧
    (∃ t, step (inPhase .setup 1 false) = .next t ∧ t.phase = .high) ∧
    (∃ t, step (inPhase .high 1 false) = .next t ∧ t.phase = .post) ∧
    (∃ t, step (inPhase .post 1 true) = .next t ∧ t.phase = .long) ∧
    (∃ t, step (inPhase .post 1 false) = .next t ∧ t.phase = .idle) ∧
    (∃ t, step (inPhase .long 1 true) = .next t ∧ t.phase = .idle) :=
  ⟨⟨_, rfl, rfl⟩, ⟨_, rfl, rfl⟩, ⟨_, rfl, rfl⟩, ⟨_, rfl, rfl⟩, ⟨_, rfl, rfl⟩, ⟨_, rfl, rfl⟩⟩

theorem witness_InitOutcomes :
    ((initWith pins2).life = .uninit ∧ pinsValid (initWith pins2).params.numGpio (initWith pins2).cfgPins = true) ∧
    ((initWith (PinAssignment.every 0)).life = .uninit ∧
      pinsValid (initWith (PinAssignment.every 0)).params.numGpio (initWith (PinAssignment.every 0)).cfgPins = false) ∧
    failed.life ≠ .uninit := by decide

/-- For CmdAndDataStartTransfer, PlainCommandsStartTransfer, ControlFlagRequests, ModeFlagRequests, LinesCarryBits. -/
theorem witness_ready : s0.life = .ready := rfl

theorem witness_NotReadyOnlyRaises :
    (Instr.data 0x41#8).isHost = true ∧ Instr.data 0x41#8 ≠ .init ∧ State.reset.life ≠ .ready ∧ failed.life ≠ .ready := by
  decide

theorem witness_SetFieldTouchesOneBit : 0 < 8 ∧ 7 < 8 := by decide

/-- A request executed in a run without reset, and one in a run from a reset edge. -/
theorem witness_AccumulatorsHoldLastWrite :
    ((s0With 0x901#12).noResetFor 2 ∧ (∃ t, run 2 (s0With 0x901#12) = .next t) ∧
      executed 2 (s0With 0x901#12) = [.setCursor true]) ∧
    ∃ u t, step { s0 with ports := { Ports.quiet with rst := true } } = .next u ∧ u.noResetFor 1 ∧ run 1 u = .next t :=
  ⟨⟨s0With_noReset _ _, ⟨_, rfl⟩, by decide⟩, _, _, rfl, by simp [State.noResetFor, State.inputs, State.reset, s0]; rfl, rfl⟩

/-- One state an error. -/
theorem witness_RaisingRequestHasNoOtherEffect :
    ((initWith (PinAssignment.every 5)).accepts ∧ raisedError (initWith (PinAssignment.every 5)) = some .cfg) ∧
    ((State.reset.offer 0x201#12).accepts ∧ raisedError (State.reset.offer 0x201#12) = some .notInit) ∧
    ((failed.offer 0x100#12).accepts ∧ raisedError (failed.offer 0x100#12) = some .reinit) ∧
    ((s0With 0xE00#12).accepts ∧ raisedError (s0With 0xE00#12) = some .illegal) :=
  ⟨⟨⟨rfl, rfl, rfl⟩, rfl⟩, ⟨⟨rfl, rfl, rfl⟩, rfl⟩, ⟨⟨rfl, rfl, rfl⟩, rfl⟩, ⟨⟨rfl, rfl, rfl⟩, rfl⟩⟩

theorem witness_StickyBitsAccumulate :
    (∃ t, step (failed.offer 0x100#12) = .next t) ∧ (failed.offer 0x100#12).accepts ∧
    (∃ t, step (inPhase .post 1 false) = .next t) ∧ ¬(inPhase .post 1 false).accepts :=
  ⟨⟨_, rfl⟩, ⟨rfl, rfl, rfl⟩, ⟨_, rfl⟩, fun h => nomatch h.2.1⟩

/-- A reset edge, an INIT that succeeds, one that fails, and an INIT when the block is ready. -/
theorem witness_LifecycleWriters_PinmapWriters :
    (∃ t, step { s0 with ports := { Ports.quiet with rst := true } } = .next t) ∧
    (∃ t, step (initWith pins2) = .next t ∧ (initWith pins2).firstInit ∧
      pinsValid (initWith pins2).params.numGpio (initWith pins2).cfgPins = true) ∧
    (∃ t, step (initWith (PinAssignment.every 0)) = .next t ∧ (initWith (PinAssignment.every 0)).firstInit ∧
      pinsValid (initWith (PinAssignment.every 0)).params.numGpio (initWith (PinAssignment.every 0)).cfgPins = false) ∧
    (∃ t, step (s0With 0x100#12) = .next t ∧ ¬(s0With 0x100#12).firstInit) :=
  ⟨⟨_, rfl⟩, ⟨_, rfl, ⟨⟨rfl, rfl, rfl⟩, rfl, rfl⟩, rfl⟩, ⟨_, rfl, ⟨⟨rfl, rfl, rfl⟩, rfl, rfl⟩, rfl⟩,
    ⟨_, rfl, fun h => nomatch h.2.2⟩⟩

/-- A reset edge, and an edge that changes the register by each of the three requests that write it. -/
theorem witness_CtrlWriters :
    { s0 with ports := { Ports.quiet with rst := true } }.ports.rst = true ∧
    (∃ t, step (s0With 0x801#12) = .next t ∧ t.ctrlQ ≠ (s0With 0x801#12).ctrlQ) ∧
    (∃ t, step (s0With 0x901#12) = .next t ∧ t.ctrlQ ≠ (s0With 0x901#12).ctrlQ) ∧
    (∃ t, step (s0With 0xA01#12) = .next t ∧ t.ctrlQ ≠ (s0With 0xA01#12).ctrlQ) :=
  ⟨rfl, ⟨_, rfl, by decide⟩, ⟨_, rfl, by decide⟩, ⟨_, rfl, by decide⟩⟩

theorem witness_ModeWriters :
    { s0 with ports := { Ports.quiet with rst := true } }.ports.rst = true ∧
    (∃ t, step (s0With 0xB00#12) = .next t ∧ t.modeQ ≠ (s0With 0xB00#12).modeQ) ∧
    (∃ t, step (s0With 0xC01#12) = .next t ∧ t.modeQ ≠ (s0With 0xC01#12).modeQ) ∧
    (∃ t, step (s0With 0xD01#12) = .next t ∧ t.modeQ ≠ (s0With 0xD01#12).modeQ) :=
  ⟨rfl, ⟨_, rfl, by decide⟩, ⟨_, rfl, by decide⟩, ⟨_, rfl, by decide⟩⟩

theorem witness_LinesCarryBits :
    (∃ t, exec (.cmd 0xA5#8) s0 = .next t) ∧ (∃ t, exec (.data 0xFF#8) s0 = .next t) := ⟨⟨_, rfl⟩, ⟨_, rfl⟩⟩

theorem witness_PinRouting :
    (s0.life = .ready ∧ pinsValid s0.params.numGpio s0.pinmap = true ∧ ∀ r, pinOf s0.pinmap r ≠ 12) ∧
    State.reset.life ≠ .ready :=
  ⟨⟨rfl, rfl, fun r => by cases r <;> decide⟩, by decide⟩

/-- A normal transfer and a long one; the ranges of `k` meet at 2, 4, 104 and 2104. -/
theorem witness_TransferTimeline :
    ((s0With 0x341#12).params.ok = true ∧ (s0With 0x341#12).accepts ∧
      decodeHost (s0With 0x341#12).ports.reqWord = .instr (.data 0x41#8) ∧
      (∃ u, exec (.data 0x41#8) (s0With 0x341#12) = .next u ∧ u.phase = .setup ∧ u.xferLong = false) ∧
      normalCycles (s0With 0x341#12).params = 104 ∧ (s0With 0x341#12).noResetFor 105) ∧
    ((s0With 0x400#12).params.ok = true ∧ (s0With 0x400#12).accepts ∧
      decodeHost (s0With 0x400#12).ports.reqWord = .instr .clear ∧
      (∃ u, exec .clear (s0With 0x400#12) = .next u ∧ u.phase = .setup ∧ u.xferLong = true) ∧
      normalCycles (s0With 0x400#12).params + (s0With 0x400#12).params.nLong = 2104 ∧ (s0With 0x400#12).noResetFor 2105) :=
  ⟨⟨by decide, ⟨rfl, rfl, rfl⟩, by decide, ⟨_, rfl, rfl, rfl⟩, rfl, s0With_noReset _ _⟩,
    ⟨by decide, ⟨rfl, rfl, rfl⟩, by decide, ⟨_, rfl, rfl, rfl⟩, rfl, s0With_noReset _ _⟩⟩

/-- One request for each line of the table of R122, at the last edge of its busy time. -/
theorem witness_BusyCyclesOfRequests :
    (s0With 0x703#12).params.ok = true ∧ (∀ w k, (s0With w).noResetFor k) ∧ (∀ w, (s0With w).accepts) ∧
    busyCycles (s0With 0x703#12) = 0 ∧ busyCycles (s0With 0xE00#12) = 0 ∧ busyCycles (s0With 0x100#12) = 0 ∧
    busyCycles (State.reset.offer 0x341#12) = 0 ∧
    busyCycles (s0With 0x701#12) = 104 ∧ busyCycles (s0With 0x204#12) = 104 ∧ busyCycles (s0With 0x801#12) = 104 ∧
    busyCycles (s0With 0x203#12) = 2104 ∧ busyCycles (s0With 0x500#12) = 2104 :=
  ⟨by decide, s0With_noReset, fun _ => ⟨rfl, rfl, rfl⟩, by decide, by decide, by decide, by decide, by decide, by decide,
    by decide, by decide, by decide⟩

theorem witness_LinesInvariantAfterReset :
    { inPhase .high 1 true with ports := { Ports.quiet with rst := true } }.ports.rst = true ∧
    ∃ t, run (1 + 1) { inPhase .high 1 true with ports := { Ports.quiet with rst := true } } = .next t := ⟨rfl, _, rfl⟩

/-- A ready block with a known panel meets the invariant. -/
theorem witness_StepKeepsInvariant : k0.Inv ∧ ∃ t, step k0 = .next t :=
  ⟨⟨⟨by decide, by decide, by decide, by decide, by decide, by decide⟩, by decide, by decide, by decide, by decide, by decide,
    fun h => absurd rfl h, by decide, ⟨List.Pairwise.nil, fun _ h => absurd h (List.not_mem_nil)⟩⟩, _, rfl⟩

theorem witness_PanelCannotReachBlock :
    (∃ t, run 2 (s0With 0x341#12) = .next t) ∧
    ∃ t, run 2 { s0With 0x341#12 with panel := .lost, trace := [⟨0, true, 0x00#8⟩], free := 7 } = .next t :=
  ⟨⟨_, rfl⟩, ⟨_, rfl⟩⟩

theorem witness_PanelInstructionsRecordEvent :
    encode .clearDisplay = .panel 0x001#9 ∧ encode (.functionSet true true true) = .panel 0x03C#9 ∧
    encode (.setDdram 0x7F#7) = .panel 0x0FF#9 ∧ encode (.dataWrite 0x00#8) = .panel 0x100#9 := by decide

theorem witness_KnownPanelEffects : k0.panel = .known regs0 ∧ k0.panelPremise = true := ⟨rfl, by decide⟩

/-- Both ends of both address spaces; of the DDRAM addresses 0x00 and 0x40 are there. -/
theorem witness_DataWriteStoresByte :
    (∀ a : PanelAddr, let s := { s0 with panel := .known { regs0 with addr := a } }
      s.panel = .known { regs0 with addr := a } ∧ s.panelPremise = true) ∧
    regs0.addr = .ddram 0x40#7 ∧ regs0.hasDdram 0x40#7 = true ∧ regs0.hasDdram 0x00#7 = true ∧
    { regs0 with addr := .cgram 0x3F#6 }.addr = .cgram 0x3F#6 :=
  ⟨fun _ => ⟨rfl, (by decide : s0.panelPremise = true)⟩, rfl, rfl, rfl, rfl⟩

theorem witness_UnstatedPanelEffects :
    (s0.panelPremise = true ∧ s0.panel.blank ∧ s0.panel ≠ .lost ∧ ∀ l f, s0.panel ≠ .fourBit l f) ∧
    (k0.panelPremise = true ∧ ¬k0.panel.blank ∧ ∀ l f, k0.panel ≠ .fourBit l f) ∧
    ({ s0 with panel := .fourBit true false }.panelPremise = true ∧
      ∃ l f, { s0 with panel := .fourBit true false }.panel = .fourBit l f) :=
  ⟨⟨by decide, .inl rfl, by decide, fun _ _ h => (nomatch h)⟩,
    ⟨by decide, fun h => h.elim (fun e => nomatch e) (fun e => nomatch e), fun _ _ h => (nomatch h)⟩, by decide, _, _, rfl⟩

/-- A panel of which nothing is known, a known one, and the edge that completes the initialization. -/
theorem witness_InitializationMakesPanelKnown :
    (s0.panel ≠ .lost ∧ k0.panel ≠ .lost ∧ s0.panelPremise = true ∧ (true && false) = false ∧ (false && true) = false ∧
      (∀ l g, s0.panel ≠ .fourBit l g) ∧ ∀ l g, k0.panel ≠ .fourBit l g) ∧
    let s := { s0 with panel := .displaySet true false true true true }.onLines 0x001#9
    ∃ t r, step s = .next t ∧ t.panel = .known r ∧ ∀ q, s.panel ≠ .known q :=
  ⟨⟨by decide, by decide, by decide, rfl, rfl, fun _ _ h => (nomatch h), fun _ _ h => (nomatch h)⟩,
    _, _, rfl, rfl, fun _ h => (nomatch h)⟩

theorem witness_FourBitModeLosesPanel :
    (Instr.dataWrite 0x41#8).isHost = false ∧
    { s0With 0x341#12 with panel := .lost }.panel = .lost ∧
    (∃ t, run 2 { s0With 0x341#12 with panel := .lost } = .next t) ∧
    { s0With 0x341#12 with panel := .fourBit true false }.panel = .fourBit true false ∧
    ∃ t, run 2 { s0With 0x341#12 with panel := .fourBit true false } = .next t := ⟨rfl, rfl, ⟨_, rfl⟩, rfl, _, rfl⟩

/-- A reset of an idle block, and one in a transfer. -/
theorem witness_ResetForgetsPanel :
    (∃ t, step { k0 with ports := { Ports.quiet with rst := true } } = .next t) ∧
    (∃ t, step { inPhase .setup 2 false with ports := { Ports.quiet with rst := true } } = .next t) ∧
    (inPhase .setup 2 false).phase ≠ .idle := ⟨⟨_, rfl⟩, ⟨_, rfl⟩, by decide⟩

/-- The first and the last unnamed byte, on a known panel. -/
theorem witness_UnnamedByteLatches :
    ∀ w ∈ [0x000#9, 0x003#9, 0x010#9, 0x01F#9, 0x021#9, 0x03F#9],
      let s := k0.onLines w
      s.ports.rst = false ∧ s.phase = .high ∧ s.cnt ≤ 1 ∧ decodePanel s.busWord = .illegal .unnamedByte := by decide

theorem witness_UnmetDutiesLosePanel :
    s0.panel = .unknown ∧
    { s0 with panel := .functionSet true false }.panel = .functionSet true false ∧
    (Instr.dataWrite 0x41#8).isHost = false ∧
    { s0 with params := { Params.reference with nPost := 1 } }.panelPremise = false ∧
    { s0 with params := { Params.reference with poweronWait := 1 } }.panelPremise = false := by decide

theorem witness_FunctionSetEffects :
    s0.panelPremise = true ∧ s0.panel ≠ .lost ∧ (∀ l g, s0.panel ≠ .fourBit l g) ∧ (true && false) = false :=
  ⟨by decide, by decide, fun _ _ h => (nomatch h), rfl⟩

/-- The stages, and both states from which a display control is taken. -/
theorem witness_PanelStagesStay :
    (∀ p ∈ [Panel.unknown, .functionSet true false, .displaySet true false true true true, .lost],
      let s := { s0 with panel := p }
      s.panelPremise = true ∧ (∀ r, s.panel ≠ .known r) ∧ ∀ l f, s.panel ≠ .fourBit l f) ∧
    { s0 with panel := .functionSet true false }.panel = .functionSet true false ∧
    ∃ x y z, { s0 with panel := .displaySet true false true true true }.panel = .displaySet true false x y z := by
  refine ⟨?_, rfl, _, _, _, rfl⟩
  intro p hp
  simp only [List.mem_cons, List.not_mem_nil, or_false] at hp
  rcases hp with h | h | h | h <;> subst h <;>
    exact ⟨(by decide : s0.panelPremise = true), fun _ h => (nomatch h), fun _ _ h => (nomatch h)⟩

/-- Shortest counts that meet R6 at 1 Hz, so that the two clears are short runs. -/
def slow : Params :=
  { clkHz := 1, nSu := 1, nPw := 1, nPost := 1, nLong := 1, numGpio := 10, pinW := 4, cntW := 1, poweronWait := 0 }

/-- S0 at those counts, with the two clears scheduled. -/
def clears : State :=
  { s0With 0x400#12 with
    params := slow
    sched := (List.replicate 4 Ports.quiet) ++ [(s0With 0x400#12).ports] }

/-- The first clear takes five edges at those counts; the host then offers the second. -/
theorem witness_ClearTwiceIsClearOnce :
    clears.params.ok = true ∧ clears.life = .ready ∧ clears.accepts ∧ clears.ports.reqWord = 0x400#12 ∧
    normalCycles clears.params + clears.params.nLong + 1 = 5 ∧ (∀ q ∈ clears.inputs.take 5, q.rst = false) ∧
    ∃ t t', run 5 clears = .next t ∧ t.accepts ∧ t.ports.reqWord = 0x400#12 ∧ (∀ q ∈ t.inputs.take 5, q.rst = false) ∧
      run 5 t = .next t' :=
  ⟨by decide, rfl, ⟨rfl, rfl, rfl⟩, rfl, rfl, by decide, _, _, rfl, ⟨rfl, rfl, rfl⟩, rfl, by decide, rfl⟩

end Sys2Proof.Tests
end

section
/-! SUPPORT. Everything that a clock edge, a step and an accepted request can do, as one case analysis each, and what
each of them leaves of the parameters, the inputs, the index and the flags of `CTRL` and `MODE`. -/

namespace Sys2Proof.Proofs

open Sys2Proof.Machine Sys2Proof.Laws

variable {s t u : State} {i : Instr} {k : Nat}

/-! ## The cases of an edge -/

/-- The outcomes of a host request (R59, R69, R97), one constructor a case of `hostExec_cases`. -/
inductive RequestTo (i : Instr) (s : State) : State → Prop
  | initReady (hi : i = .init) (hl : s.life = .uninit) (hv : pinsValid s.params.numGpio s.cfgPins = true) :
      RequestTo i s { s with pinmap := s.cfgPins, rsQ := false, enQ := false, dQ := 0x00#8, life := .ready }
  | initFailed (hi : i = .init) (hl : s.life = .uninit) (hv : pinsValid s.params.numGpio s.cfgPins = false) :
      RequestTo i s (({ s with life := .failed } : State).raise .cfg)
  | initAgain (hi : i = .init) (hl : s.life ≠ .uninit) : RequestTo i s (s.raise .reinit)
  | notReady (hi : i ≠ .init) (hl : s.life ≠ .ready) : RequestTo i s (s.raise .notInit)
  | noLine (hi : i ≠ .init) (hl : s.life = .ready) : RequestTo i s s
  | transfer {u : State} (hi : i ≠ .init) (hl : s.life = .ready) (hs : Started s u) : RequestTo i s u

/-- What a clock edge does to the block, one constructor a case of R58, R59 and R62. -/
inductive EdgeTo (s : State) : State → Prop
  | reset (hr : s.ports.rst = true) : EdgeTo s s.doReset
  | quiet (hr : s.ports.rst = false) (hp : s.phase = .idle) (hv : s.ports.reqValid = false) : EdgeTo s s
  | illegal {r : Reject} (ha : s.accepts) (hd : decodeHost s.ports.reqWord = .illegal r) :
      EdgeTo s (s.raise .illegal)
  | request {i : Instr} {u : State} (ha : s.accepts) (hd : decodeHost s.ports.reqWord = .instr i)
      (hx : exec i s = .next u) : EdgeTo s u
  | count (hr : s.ports.rst = false) (hp : s.phase ≠ .idle) (hc : 1 < s.cnt) : EdgeTo s s.countDown
  | setup (hr : s.ports.rst = false) (hp : s.phase = .setup) (hc : s.cnt ≤ 1) : EdgeTo s s.raiseEnable
  | high {w : BusWord} {f : Nat → Panel → Panel} (hr : s.ports.rst = false) (hp : s.phase = .high) (hc : s.cnt ≤ 1)
      (hf : ∀ n, Keeps (f n)) (hl : latchLines s = .next (s.latch w f)) : EdgeTo s (s.latch w f).lowerEnable
  | post (hr : s.ports.rst = false) (hp : s.phase = .post) (hc : s.cnt ≤ 1) : EdgeTo s s.endPost
  | long (hr : s.ports.rst = false) (hp : s.phase = .long) (hc : s.cnt ≤ 1) : EdgeTo s s.endLong

theorem requestTo_of_exec (hi : i.isHost = true) (hx : exec i s = .next u) : RequestTo i s u := by
  obtain ⟨hi, hl, hv, h⟩ | ⟨hi, hl, hv, h⟩ | ⟨hi, hl, h⟩ | ⟨hi, hl, h⟩ | ⟨hi, hl, h⟩ | ⟨hi, hl, v, hs, h⟩ :=
    hostExec_cases i hi s <;> cases h.symm.trans hx
  · exact .initReady hi hl hv
  · exact .initFailed hi hl hv
  · exact .initAgain hi hl
  · exact .notReady hi hl
  · exact .noLine hi hl
  · exact .transfer hi hl hs

theorem edgeTo_of_advance (hr : s.ports.rst = false) (hp : s.phase ≠ .idle) (hc : s.cnt ≤ 1)
    (h : advance s = .next u) : EdgeTo s u := by
  cases hs : s.phase with
  | idle => exact absurd hs hp
  | setup => simp only [advance, hs] at h; cases h; exact .setup hr hs hc
  | high =>
    obtain ⟨w, f, hf, hl⟩ := latchLines_keeps s
    simp only [advance, hs, hl, mapNext_next] at h
    cases h
    exact .high hr hs hc hf hl
  | post => simp only [advance, hs] at h; cases h; exact .post hr hs hc
  | long => simp only [advance, hs] at h; cases h; exact .long hr hs hc

theorem edgeTo_of_clockEdge (h : clockEdge s = .next u) : EdgeTo s u := by
  obtain ⟨hr, rfl⟩ | ⟨hr, hp, hv, rfl⟩ | ⟨hr, hp, hv, h⟩ | ⟨hr, hp, hc, rfl⟩ | ⟨hr, hp, hc, h⟩ := clockEdge_cases h
  · exact .reset hr
  · exact .quiet hr hp hv
  · obtain ⟨r, hd, hx⟩ | ⟨i, hd, -, hx⟩ := dispatch_cases s.ports.reqWord s
    · cases hx.symm.trans h
      exact .illegal ⟨hr, hp, hv⟩ hd
    · exact .request ⟨hr, hp, hv⟩ hd (hx.symm.trans h)
  · exact .count hr hp hc
  · exact edgeTo_of_advance hr hp hc h

/-- Every step is one of the cases, and then the ports of the next edge. -/
theorem step_cases (h : step s = .next t) : ∃ u, EdgeTo s u ∧ t = u.afterEdge := by
  obtain ⟨u, hu, rfl⟩ := step_eq_next.1 h
  exact ⟨u, edgeTo_of_clockEdge hu, rfl⟩

/-- R58, R110: a reset edge. -/
theorem step_of_reset (hr : s.ports.rst = true) : step s = .next s.doReset.afterEdge := by
  simp only [step, clockEdge, hr, if_true, mapNext_next]

/-! ## The parameters, the inputs and the index -/

/-- Two states with the same parameters, inputs and edge index. -/
def SameInputs (s u : State) : Prop :=
  u.params = s.params ∧ u.ports = s.ports ∧ u.sched = s.sched ∧ u.edge = s.edge

theorem requestTo_sameInputs (h : RequestTo i s u) : SameInputs s u := by
  cases h with
  | transfer hi hl hs => obtain ⟨c, m, rs, b, long, -, rfl⟩ := hs; exact ⟨rfl, rfl, rfl, rfl⟩
  | _ => exact ⟨rfl, rfl, rfl, rfl⟩

/-- No case of an edge but the host writes an input, and no case writes a parameter or the index. -/
theorem edgeTo_sameInputs (h : EdgeTo s u) : SameInputs s u := by
  cases h with
  | request ha hd hx => exact requestTo_sameInputs (requestTo_of_exec (decodeHost_isHost hd) hx)
  | post hr hp hc => simp [SameInputs]
  | _ => exact ⟨rfl, rfl, rfl, rfl⟩

/-! ## INIT -/

theorem argNone_eq_instr {arg : Byte} {j : Instr} : argNone arg j = .instr i ↔ arg = 0x00#8 ∧ j = i := by
  unfold argNone
  split <;> simp [*]

theorem argBool_ne_init {arg : Byte} {mk : Bool → Instr} (hmk : ∀ v, mk v ≠ .init) :
    argBool arg mk ≠ .instr .init := by
  unfold argBool
  split <;> simp [hmk]

/-- The one word of INIT (R47, R48). -/
theorem decodeHost_eq_init {w : HostWord} : decodeHost w = .instr .init ↔ w = 0x100#12 := by
  refine ⟨fun h => ?_, fun h => by subst h; rfl⟩
  unfold decodeHost at h
  dsimp only at h
  split at h <;> simp [argNone_eq_instr, argBool_ne_init] at h
  rename_i hop
  have harg := congrArg BitVec.toNat h
  simp only [BitVec.extractLsb'_toNat, BitVec.toNat_ofNat, Nat.shiftRight_eq_div_pow] at hop harg
  apply BitVec.eq_of_toNat_eq
  simp only [BitVec.toNat_ofNat]
  omega

/-- The accepted requests that are an INIT while UNINIT are those of `State.firstInit` (R18). -/
theorem firstInit_iff (ha : s.accepts) (hd : decodeHost s.ports.reqWord = .instr i) :
    s.firstInit ↔ i = .init ∧ s.life = .uninit := by
  have hw : s.ports.reqWord = 0x100#12 ↔ i = .init := by rw [← decodeHost_eq_init, hd, Decoded.instr.injEq]
  simp only [State.firstInit, ha, hw, true_and]

theorem not_firstInit_of_illegal {r : Reject} (hd : decodeHost s.ports.reqWord = .illegal r) : ¬s.firstInit := by
  rintro ⟨-, hw, -⟩
  cases hd.symm.trans (decodeHost_eq_init.2 hw)

/-! ## The requests that an edge executes -/

theorem executes_eq_some : s.executes = some i ↔
    s.accepts ∧ s.life = .ready ∧ decodeHost s.ports.reqWord = .instr i := by
  unfold State.executes State.accepts
  split
  · rename_i h
    cases hd : decodeHost s.ports.reqWord <;> simp [Decoded.toOption, h]
  · rename_i h
    simp only [reduceCtorEq, false_iff]
    rintro ⟨⟨hr, hp, hv⟩, hl, -⟩
    exact h ⟨hr, hp, hv, hl⟩

theorem executes_eq_none (h : ∀ i, s.accepts → s.life = .ready → decodeHost s.ports.reqWord ≠ .instr i) :
    s.executes = none := by
  rw [Option.eq_none_iff_forall_not_mem]
  intro i hi
  obtain ⟨ha, hl, hd⟩ := executes_eq_some.1 hi
  exact h i ha hl hd

/-! ## The flags of `CTRL` and `MODE` -/

/-- What an executed request leaves of `CTRL`: the three ControlFlags requests write one bit each (R78 to R80). -/
def ctrlAfter (c : CtrlReg) : Instr → CtrlReg
  | .setDisplay v => { c with display := v }
  | .setCursor v => { c with cursor := v }
  | .setBlink v => { c with blink := v }
  | _ => c

/-- What an executed request leaves of `MODE`: the three ModeFlags requests write one bit each (R81 to R83). -/
def modeAfter (m : ModeReg) : Instr → ModeReg
  | .setBitMode v => { m with eight := v }
  | .setLines v => { m with twoLines := v }
  | .setFont v => { m with bigFont := v }
  | _ => m

@[simp] theorem sendCtrl_ctrl (b : Byte) (v : Bool) :
    (s.sendCtrl b v).ctrl = CtrlReg.ofByte (setField s.ctrl.byte b v) := rfl
@[simp] theorem sendCtrl_mode (b : Byte) (v : Bool) : (s.sendCtrl b v).mode = s.mode := rfl
@[simp] theorem sendMode_mode (b : Byte) (v : Bool) :
    (s.sendMode b v).mode = ModeReg.ofByte (setField s.mode.byte b v) := rfl
@[simp] theorem sendMode_ctrl (b : Byte) (v : Bool) : (s.sendMode b v).ctrl = s.ctrl := rfl

/-- A request in READY writes `CTRL` and `MODE` as `ctrlAfter` and `modeAfter` say (R59, R73). -/
theorem exec_flags_ready (hi : i.isHost = true) (hl : s.life = .ready) (hx : exec i s = .next u) :
    u.ctrl = ctrlAfter s.ctrl i ∧ u.mode = modeAfter s.mode i := by
  cases i with
  | init =>
    simp only [exec, execInit, hl, ne_eq, reduceCtorEq, not_false_eq_true, if_true] at hx
    cases hx
    exact ⟨rfl, rfl⟩
  | cmd _ | data _ | clear | home | setDir _ | setDisplay _ | setCursor _ | setBlink _ | setBitMode _ | setLines _
  | setFont _ =>
    simp only [exec, execCmd, execData, execClear, execHome, execSetDir, execSetDisplay, execSetCursor, execSetBlink,
      execSetBitMode, execSetLines, execSetFont, requireReady_ready hl] at hx
    cases hx
    simp [ctrlAfter, modeAfter, setField_display, setField_cursor, setField_blink, setField_eight, setField_twoLines,
      setField_bigFont]
  | selectLine n =>
    simp only [exec, execSelectLine, requireReady_ready hl] at hx
    cases hx
    cases lineBase n <;> exact ⟨rfl, rfl⟩
  | _ => simp [Instr.isHost] at hi

/-- A request in another lifecycle writes neither (R59, R69). -/
theorem exec_flags_notReady (hi : i.isHost = true) (hl : s.life ≠ .ready) (hx : exec i s = .next u) :
    u.ctrl = s.ctrl ∧ u.mode = s.mode := by
  cases requestTo_of_exec hi hx with
  | noLine _ hr => exact absurd hr hl
  | transfer _ hr => exact absurd hr hl
  | _ => exact ⟨rfl, rfl⟩

/-- R73: without reset, the flags after an edge are those before it with the executed request, if any, written. -/
theorem edgeTo_flags (hu : EdgeTo s u) (hr : s.ports.rst = false) :
    u.ctrl = s.executes.toList.foldl ctrlAfter s.ctrl ∧ u.mode = s.executes.toList.foldl modeAfter s.mode := by
  have hbusy : s.phase ≠ .idle → s.executes = none := fun hp => executes_eq_none fun _ ha => absurd ha.2.1 hp
  cases hu with
  | reset hr' => rw [hr] at hr'; cases hr'
  | quiet _ _ hv =>
    rw [executes_eq_none fun _ ha => by simp [ha.2.2] at hv]
    exact ⟨rfl, rfl⟩
  | illegal ha hd =>
    rw [executes_eq_none fun _ _ _ => by simp [hd]]
    exact ⟨rfl, rfl⟩
  | request ha hd hx =>
    by_cases hl : s.life = .ready
    · rw [executes_eq_some.2 ⟨ha, hl, hd⟩]
      exact exec_flags_ready (decodeHost_isHost hd) hl hx
    · rw [executes_eq_none fun _ _ hl' => absurd hl' hl]
      exact exec_flags_notReady (decodeHost_isHost hd) hl hx
  | count _ hp => rw [hbusy hp]; exact ⟨rfl, rfl⟩
  | setup _ hp | high _ hp | post _ hp | long _ hp => rw [hbusy (by simp [hp])]; simp

theorem step_flags (h : step s = .next t) (hr : s.ports.rst = false) :
    t.ctrl = s.executes.toList.foldl ctrlAfter s.ctrl ∧ t.mode = s.executes.toList.foldl modeAfter s.mode := by
  obtain ⟨u, hu, rfl⟩ := step_cases h
  have hflags := edgeTo_flags hu hr
  exact hflags

/-! ## Runs -/

theorem run_succ_eq_next : run (k + 1) s = .next t ↔ ∃ u, step s = .next u ∧ run k u = .next t := by
  rw [run]
  cases step s <;> simp

/-- What every step keeps, every run keeps. -/
theorem run_keeps {P : State → Prop} (hstep : ∀ s t, P s → step s = .next t → P t) (h : P s)
    (hrun : run k s = .next t) : P t := by
  induction k generalizing s with
  | zero => cases hrun; exact h
  | succ k ih =>
    obtain ⟨u, hu, hrun⟩ := run_succ_eq_next.1 hrun
    exact ih (hstep s u h hu) hrun

theorem executed_succ (h : step s = .next u) : executed (k + 1) s = s.executes.toList ++ executed k u := by
  simp only [executed, h]

theorem noReset_head (h : s.noResetFor (k + 1)) : s.ports.rst = false :=
  h s.ports (by simp [State.inputs])

/-- After its first edge the host asserts no reset at the remaining ones: it drives the rest of its schedule, or is
quiet (log 1). -/
theorem noReset_tail (h : s.noResetFor (k + 1)) (hu : step s = .next u) : u.noResetFor k := by
  obtain ⟨v, hv, rfl⟩ := step_cases hu
  obtain ⟨-, -, hsched, -⟩ := edgeTo_sameInputs hv
  intro q hq
  cases hs : s.sched with
  | nil =>
    have hq := List.mem_of_mem_take hq
    simp only [State.inputs, afterEdge_ports, afterEdge_sched, hsched, hs, List.headD_nil, List.tail_nil,
      List.mem_singleton] at hq
    rw [hq]; rfl
  | cons p r =>
    simp only [State.inputs, afterEdge_ports, afterEdge_sched, hsched, hs, List.headD_cons, List.tail_cons] at hq
    refine h q ?_
    simp only [State.inputs, hs, List.take_succ_cons]
    exact List.mem_cons_of_mem _ hq

end Sys2Proof.Proofs
end

section
/-! CERTIFICATE. The invariant of the machine (R20, R24, R29, R66, R119): each clause is kept by every case of an edge,
and so by every step and every run. -/

namespace Sys2Proof.Proofs

open Sys2Proof.Machine Sys2Proof.Laws

variable {s t u : State} {i : Instr}

/-! ## The clauses of R29 -/

/-- R29.5 holds in every state: the hardwired bits are not stored (log 10). -/
theorem hardwired_bits (s : State) : s.ctrlQ.extractLsb' 3 5 = 0b00001#5 ∧ s.modeQ.extractLsb' 5 3 = 0b001#3 ∧
    s.modeQ.extractLsb' 0 2 = 0b00#2 := by
  have hc : ∀ d c b, (displayControlByte d c b).extractLsb' 3 5 = 0b00001#5 := by decide
  have hm : ∀ e n f, (functionSetByte e n f).extractLsb' 5 3 = 0b001#3 ∧
    (functionSetByte e n f).extractLsb' 0 2 = 0b00#2 := by decide
  exact ⟨hc _ _ _, hm _ _ _⟩

/-- R29 speaks of `life`, `phase` and the line registers only. -/
theorem linesInv_congr (h : s.LinesInv) (hl : u.life = s.life) (hp : u.phase = s.phase) (hrs : u.rsQ = s.rsQ)
    (hen : u.enQ = s.enQ) (hd : u.dQ = s.dQ) : u.LinesInv where
  enable := by rw [hen, hp]; exact h.enable
  idleLow := by rw [hp, hrs, hen]; exact h.idleLow
  busyReady := by rw [hp, hl]; exact h.busyReady
  longLow := by rw [hp, hrs]; exact h.longLow
  hardwired := hardwired_bits u
  uninitLow := by rw [hl, hrs, hen, hd]; exact h.uninitLow

/-- R29 in an idle block whose lines RS and EN are low. -/
theorem linesInv_of_idle (hp : u.phase = .idle) (hrs : u.rsQ = false) (hen : u.enQ = false)
    (hd : u.life = .uninit → u.dQ = 0x00#8) : u.LinesInv where
  enable := by simp [hp, hen]
  idleLow _ := ⟨hrs, hen⟩
  busyReady h := absurd hp h
  longLow _ := hrs
  hardwired := hardwired_bits u
  uninitLow hl := ⟨hrs, hen, hd hl⟩

/-- R29 in a block that runs a transfer. -/
theorem linesInv_of_busy (hp : u.phase ≠ .idle) (hl : u.life = .ready) (hen : u.enQ = true ↔ u.phase = .high)
    (hrs : u.phase = .long → u.rsQ = false) : u.LinesInv where
  enable := hen
  idleLow h := absurd h hp
  busyReady _ := hl
  longLow := hrs
  hardwired := hardwired_bits u
  uninitLow h := by rw [hl] at h; cases h

theorem linesInv_after_reset (s : State) : s.doReset.LinesInv := linesInv_of_idle rfl rfl rfl fun _ => rfl

theorem enable_low (h : s.LinesInv) (hp : s.phase ≠ .high) : s.enQ = false := by
  rw [← Bool.not_eq_true, h.enable]; exact hp

theorem requestTo_linesInv (h : s.LinesInv) (hp : s.phase = .idle) (hu : RequestTo i s u) : u.LinesInv := by
  obtain ⟨hrs, hen⟩ := h.idleLow hp
  cases hu with
  | initReady _ _ _ => exact linesInv_of_idle hp rfl rfl fun _ => rfl
  | initFailed _ _ _ => exact linesInv_of_idle hp hrs hen (by simp)
  | initAgain _ _ | notReady _ _ => exact linesInv_congr h rfl rfl rfl rfl rfl
  | noLine _ _ => exact h
  | transfer _ hl hs =>
    obtain ⟨c, m, rs, b, long, -, rfl⟩ := hs
    exact linesInv_of_busy (by simp) hl (by simp) (by simp)

theorem edgeTo_linesInv (h : s.LinesInv) (hu : EdgeTo s u) : u.LinesInv := by
  cases hu with
  | reset _ => exact linesInv_after_reset s
  | quiet _ _ _ => exact h
  | illegal _ _ => exact linesInv_congr h rfl rfl rfl rfl rfl
  | request ha hd hx => exact requestTo_linesInv h ha.2.1 (requestTo_of_exec (decodeHost_isHost hd) hx)
  | count _ _ _ => exact linesInv_congr h rfl rfl rfl rfl rfl
  | setup _ hp _ => exact linesInv_of_busy (by simp) (h.busyReady (by simp [hp])) (by simp) (by simp)
  | high _ hp _ _ _ => exact linesInv_of_busy (by simp) (h.busyReady (by simp [hp])) (by simp) (by simp)
  | post _ hp _ =>
    have hl : s.life = .ready := h.busyReady (by simp [hp])
    have hen : s.enQ = false := enable_low h (by simp [hp])
    cases hx : s.xferLong with
    | true => exact linesInv_of_busy (by simp [hx]) (by simp [hl]) (by simp [hen, hx]) (by simp)
    | false => exact linesInv_of_idle (by simp [hx]) (by simp) (by simp [hen]) (by simp [hl])
  | long _ hp _ =>
    have hl : s.life = .ready := h.busyReady (by simp [hp])
    have hen : s.enQ = false := enable_low h (by simp [hp])
    exact linesInv_of_idle rfl (h.longLow hp) hen (by simp [hl])

theorem step_linesInv (h : s.LinesInv) (hst : step s = .next t) : t.LinesInv := by
  obtain ⟨u, hu, rfl⟩ := step_cases hst
  exact linesInv_congr (edgeTo_linesInv h hu) rfl rfl rfl rfl rfl

/-! ## The counter and the length of a transfer -/

/-- R6: every phase that has a length lasts at least one cycle. -/
theorem phaseLength_pos {p : Params} (h : p.ok = true) {ph : Phase} (hph : ph ≠ .idle) : 1 ≤ phaseLength p ph := by
  simp only [Params.ok, Bool.and_eq_true, decide_eq_true_eq] at h
  cases ph with
  | idle => exact absurd rfl hph
  | setup | high | post | long => simp only [phaseLength]; omega

/-- R20: the bounds of the counter while a transfer runs. -/
def CounterBounded (s : State) : Prop := s.phase ≠ .idle → 1 ≤ s.cnt ∧ s.cnt ≤ phaseLength s.params s.phase

/-- A phase that begins with its whole length on the counter. -/
theorem counterBounded_of_loaded (hok : u.params.ok = true) (hc : u.cnt = phaseLength u.params u.phase) :
    CounterBounded u := by
  intro hp
  rw [hc]
  exact ⟨phaseLength_pos hok hp, le_rfl⟩

theorem counterBounded_of_idle (hp : u.phase = .idle) : CounterBounded u := fun h => absurd hp h

theorem requestTo_counter (hok : s.params.ok = true) (hp : s.phase = .idle) (hu : RequestTo i s u) :
    CounterBounded u := by
  cases hu with
  | transfer _ _ hs =>
    obtain ⟨c, m, rs, b, long, -, rfl⟩ := hs
    exact counterBounded_of_loaded hok rfl
  | _ => exact counterBounded_of_idle hp

theorem edgeTo_counter (hok : s.params.ok = true) (h : CounterBounded s) (hu : EdgeTo s u) : CounterBounded u := by
  cases hu with
  | reset _ => exact counterBounded_of_idle rfl
  | quiet _ _ _ => exact h
  | illegal _ _ => exact h
  | request ha hd hx => exact requestTo_counter hok ha.2.1 (requestTo_of_exec (decodeHost_isHost hd) hx)
  | count _ hp hc =>
    intro _
    obtain ⟨-, hle⟩ := h hp
    simp only [countDown_cnt, countDown_params, countDown_phase]
    omega
  | setup _ _ _ => exact counterBounded_of_loaded hok rfl
  | high _ _ _ _ _ => exact counterBounded_of_loaded hok rfl
  | post _ _ _ =>
    cases hx : s.xferLong with
    | true => exact counterBounded_of_loaded (by simp [hok]) (by simp [hx, phaseLength])
    | false => exact counterBounded_of_idle (by simp [hx])
  | long _ _ _ => exact counterBounded_of_idle rfl

/-- R66: a data transfer is never long. -/
def LongIsInstr (s : State) : Prop := s.phase ≠ .idle → s.xferLong = true → s.rsQ = false

theorem requestTo_longIsInstr (hp : s.phase = .idle) (hu : RequestTo i s u) : LongIsInstr u := by
  cases hu with
  | transfer _ _ hs =>
    obtain ⟨c, m, rs, b, long, hlong, rfl⟩ := hs
    exact fun _ => hlong
  | _ => exact fun h => absurd hp h

theorem edgeTo_longIsInstr (h : LongIsInstr s) (hu : EdgeTo s u) : LongIsInstr u := by
  cases hu with
  | request ha hd hx => exact requestTo_longIsInstr ha.2.1 (requestTo_of_exec (decodeHost_isHost hd) hx)
  | reset _ => exact fun hp => absurd rfl hp
  | quiet _ _ _ | illegal _ _ | count _ _ _ => exact h
  | setup _ hp _ | high _ hp _ _ _ => exact fun _ => h (by simp [hp])
  | post _ _ _ => exact fun _ _ => endPost_rsQ s
  | long _ _ _ => exact fun hp => absurd rfl hp

/-! ## The pins -/

/-- What the machine keeps of `PINMAP`: it is valid while in force, and each entry has `PIN_W` bits (R24, R68). -/
def PinsKept (s : State) : Prop :=
  (s.life = .ready → pinsValid s.params.numGpio s.pinmap = true) ∧ s.pinmap.fits s.params.pinW = true

theorem requestTo_pins (h : PinsKept s) (hu : RequestTo i s u) : PinsKept u := by
  cases hu with
  | initReady _ _ hv => exact ⟨fun _ => hv, onWires_fits _ _⟩
  | initFailed _ _ _ => exact ⟨by simp, h.2⟩
  | initAgain _ _ | notReady _ _ | noLine _ _ => exact h
  | transfer _ _ hs => obtain ⟨c, m, rs, b, long, -, rfl⟩ := hs; exact h

theorem edgeTo_pins (h : PinsKept s) (hu : EdgeTo s u) : PinsKept u := by
  cases hu with
  | reset _ => exact ⟨by simp, h.2⟩
  | request ha hd hx => exact requestTo_pins h (requestTo_of_exec (decodeHost_isHost hd) hx)
  | post _ _ _ => simpa [PinsKept] using h
  | quiet _ _ _ | illegal _ _ | count _ _ _ | setup _ _ _ | high _ _ _ _ _ | long _ _ _ => exact h

/-! ## The panel and the trace -/

/-- A request changes nothing that is known of the panel and records no event: the latch event comes with the enable's
fall (R63). -/
theorem requestTo_panel (hu : RequestTo i s u) : u.panel = s.panel ∧ u.trace = s.trace := by
  cases hu with
  | transfer _ _ hs => obtain ⟨c, m, rs, b, long, -, rfl⟩ := hs; exact ⟨rfl, rfl⟩
  | _ => exact ⟨rfl, rfl⟩

/-- No request leaves READY (R18). -/
theorem requestTo_notReady (hu : RequestTo i s u) (h : u.life ≠ .ready) : s.life ≠ .ready := by
  cases hu with
  | initReady _ _ _ => exact absurd rfl h
  | initFailed _ hl _ => simp [hl]
  | initAgain _ _ | notReady _ _ | noLine _ _ => exact h
  | transfer _ _ hs => obtain ⟨c, m, rs, b, long, -, rfl⟩ := hs; exact h

/-- R119: nothing is known of a panel whose lines are not driven. -/
def UndrivenBlank (s : State) : Prop := s.life ≠ .ready → s.panel.blank

theorem edgeTo_panelBlank (hlines : s.LinesInv) (h : UndrivenBlank s) (hu : EdgeTo s u) : UndrivenBlank u := by
  cases hu with
  | reset _ => exact fun _ => atReset_blank s.phase s.panel
  | request ha hd hx =>
    have hu := requestTo_of_exec (decodeHost_isHost hd) hx
    intro hl
    rw [(requestTo_panel hu).1]
    exact h (requestTo_notReady hu hl)
  | high _ hp _ _ _ => exact fun hl => absurd (hlines.busyReady (by simp [hp])) hl
  | post _ _ _ => simpa [UndrivenBlank] using h
  | quiet _ _ _ | illegal _ _ | count _ _ _ | setup _ _ _ | long _ _ _ => exact h

theorem edgeTo_panelWf (h : s.panel.wf = true) (hu : EdgeTo s u) : u.panel.wf = true := by
  cases hu with
  | reset _ => exact blank_wf (atReset_blank s.phase s.panel)
  | request ha hd hx =>
    rw [(requestTo_panel (requestTo_of_exec (decodeHost_isHost hd) hx)).1]
    exact h
  | @high w _ _ _ _ hf _ => exact latch_panel_keeps (w := w) hf h
  | post _ _ _ => simpa using h
  | quiet _ _ _ | illegal _ _ | count _ _ _ | setup _ _ _ | long _ _ _ => exact h

/-- R41, R63: the events are in the order of their edges, all of them before the edge `n`. -/
def TraceOrdered (tr : List LatchEvent) (n : Nat) : Prop :=
  tr.Pairwise (fun a b => a.edge < b.edge) ∧ ∀ e ∈ tr, e.edge < n

theorem TraceOrdered.next {tr : List LatchEvent} {n : Nat} (h : TraceOrdered tr n) : TraceOrdered tr (n + 1) :=
  ⟨h.1, fun e he => Nat.lt_succ_of_lt (h.2 e he)⟩

theorem TraceOrdered.snoc {tr : List LatchEvent} {n : Nat} (h : TraceOrdered tr n) (rs : Bool) (b : Byte) :
    TraceOrdered (tr ++ [{ edge := n, rs := rs, byte := b }]) (n + 1) := by
  refine ⟨List.pairwise_append.2 ⟨h.1, List.pairwise_singleton _ _, ?_⟩, ?_⟩
  · simpa using h.2
  · intro e he
    obtain he | he := List.mem_append.1 he
    · exact h.next.2 e he
    · rw [List.mem_singleton.1 he]; exact Nat.lt_succ_self n

theorem edgeTo_trace (h : TraceOrdered s.trace s.edge) (hu : EdgeTo s u) :
    TraceOrdered u.trace (s.edge + 1) := by
  cases hu with
  | request ha hd hx =>
    rw [(requestTo_panel (requestTo_of_exec (decodeHost_isHost hd) hx)).2]
    exact h.next
  | high _ _ _ _ _ => exact h.snoc _ _
  | post _ _ _ => simpa using h.next
  | reset _ | quiet _ _ _ | illegal _ _ | count _ _ _ | setup _ _ _ | long _ _ _ => exact h.next

/-! ## The statements -/

/-- Every clause of the invariant, at the edge and then at the index of the next one. -/
theorem step_inv (h : s.Inv) (hst : step s = .next t) : t.Inv := by
  obtain ⟨u, hu, rfl⟩ := step_cases hst
  obtain ⟨hparams, -, -, hedge⟩ := edgeTo_sameInputs hu
  have hcounter := edgeTo_counter h.paramsOk h.counter hu
  have hlong := edgeTo_longIsInstr h.longInstr hu
  have hpins := edgeTo_pins ⟨h.pins, h.pinsFit⟩ hu
  have hblank := edgeTo_panelBlank h.lines h.panelBlank hu
  have hwf := edgeTo_panelWf h.panelWf hu
  have htrace := edgeTo_trace h.traceOrder hu
  exact
    { lines := step_linesInv h.lines hst
      counter := hcounter
      longInstr := hlong
      paramsOk := by rw [afterEdge_params, hparams]; exact h.paramsOk
      pins := hpins.1
      pinsFit := hpins.2
      panelBlank := hblank
      panelWf := hwf
      traceOrder := by rw [afterEdge_edge, hedge]; exact htrace }

/-- Settles O37: every clause of the invariant is kept by every case of an edge. -/
theorem stepKeepsInvariant : Obligations.StepKeepsInvariant := by
  intro s t h hst
  exact step_inv h hst

/-- Settles O36: a reset edge establishes R29, which every later step keeps. -/
theorem linesInvariantAfterReset : Obligations.LinesInvariantAfterReset := by
  intro s t k hr hrun
  obtain ⟨u, hu, hrun⟩ := run_succ_eq_next.1 hrun
  cases (step_of_reset hr).symm.trans hu
  have hreset : s.doReset.afterEdge.LinesInv := linesInv_congr (linesInv_after_reset s) rfl rfl rfl rfl rfl
  exact run_keeps (fun _ _ => step_linesInv) hreset hrun

end Sys2Proof.Proofs
end

section
/-! CERTIFICATE. Who writes `life`, `PINMAP`, `CTRL` and `MODE` (R18, R24, R25, R26, R73). -/

namespace Sys2Proof.Proofs

open Sys2Proof.Machine Sys2Proof.Laws

variable {s t u : State} {i : Instr} {k : Nat}

/-! ## The accumulators over a run (R73) -/

theorem run_flags (hn : s.noResetFor k) (h : run k s = .next t) :
    t.ctrl = (executed k s).foldl ctrlAfter s.ctrl ∧ t.mode = (executed k s).foldl modeAfter s.mode := by
  induction k generalizing s with
  | zero => cases h; exact ⟨rfl, rfl⟩
  | succ k ih =>
    obtain ⟨u, hu, h⟩ := run_succ_eq_next.1 h
    obtain ⟨hc, hm⟩ := step_flags hu (noReset_head hn)
    rw [executed_succ hu, List.foldl_append, List.foldl_append, ← hc, ← hm]
    exact ih (noReset_tail hn hu) h

/-- A flag of a register that each request leaves or writes with the argument that `sel` picks holds the last argument
of a list of requests. -/
theorem foldl_eq_lastArg {σ : Type} {after : σ → Instr → σ} {flag : σ → Bool} {sel : Instr → Option Bool}
    (h : ∀ r i, flag (after r i) = (sel i).getD (flag r)) (is : List Instr) (r : σ) :
    flag (is.foldl after r) = lastArg sel is (flag r) :=
  (List.foldl_hom flag fun r i => (h r i).symm).symm

theorem foldl_ctrlAfter (is : List Instr) (c : CtrlReg) :
    (is.foldl ctrlAfter c).display = lastArg displayArg is c.display ∧
    (is.foldl ctrlAfter c).cursor = lastArg cursorArg is c.cursor ∧
    (is.foldl ctrlAfter c).blink = lastArg blinkArg is c.blink :=
  ⟨foldl_eq_lastArg (fun _ i => by cases i <;> rfl) is c, foldl_eq_lastArg (fun _ i => by cases i <;> rfl) is c,
    foldl_eq_lastArg (fun _ i => by cases i <;> rfl) is c⟩

theorem foldl_modeAfter (is : List Instr) (m : ModeReg) :
    (is.foldl modeAfter m).eight = lastArg eightArg is m.eight ∧
    (is.foldl modeAfter m).twoLines = lastArg linesArg is m.twoLines ∧
    (is.foldl modeAfter m).bigFont = lastArg fontArg is m.bigFont :=
  ⟨foldl_eq_lastArg (fun _ i => by cases i <;> rfl) is m, foldl_eq_lastArg (fun _ i => by cases i <;> rfl) is m,
    foldl_eq_lastArg (fun _ i => by cases i <;> rfl) is m⟩

theorem run_accumulators (hn : s.noResetFor k) (h : run k s = .next t) :
    t.ctrl.display = lastArg displayArg (executed k s) s.ctrl.display ∧
    t.ctrl.cursor = lastArg cursorArg (executed k s) s.ctrl.cursor ∧
    t.ctrl.blink = lastArg blinkArg (executed k s) s.ctrl.blink ∧
    t.mode.eight = lastArg eightArg (executed k s) s.mode.eight ∧
    t.mode.twoLines = lastArg linesArg (executed k s) s.mode.twoLines ∧
    t.mode.bigFont = lastArg fontArg (executed k s) s.mode.bigFont := by
  obtain ⟨hc, hm⟩ := run_flags hn h
  obtain ⟨hd, hcur, hb⟩ := foldl_ctrlAfter (executed k s) s.ctrl
  rw [hc, hm]
  exact ⟨hd, hcur, hb, foldl_modeAfter (executed k s) s.mode⟩

/-- Settles O24: a run folds the executed requests over the flags, and a reset edge leaves R110's flags to start from. -/
theorem accumulatorsHoldLastWrite : Obligations.AccumulatorsHoldLastWrite := by
  refine ⟨fun k s t hn h => run_accumulators hn h, fun k s u t hr hu hn h => ?_⟩
  cases (step_of_reset hr).symm.trans hu
  exact run_accumulators hn h

/-! ## The flags at one step (R25, R26) -/

/-- A step that changes a flag register executes a request, which writes it. -/
theorem executed_of_flags_change {σ : Type} {after : σ → Instr → σ} {x y : σ}
    (h : y = s.executes.toList.foldl after x) (hne : y ≠ x) :
    ∃ i, s.accepts ∧ s.life = .ready ∧ decodeHost s.ports.reqWord = .instr i ∧ y = after x i := by
  cases he : s.executes with
  | none => rw [he] at h; exact absurd h hne
  | some i =>
    obtain ⟨ha, hl, hd⟩ := executes_eq_some.1 he
    rw [he] at h
    exact ⟨i, ha, hl, hd, h⟩

theorem displayControlByte_range (d c b : Bool) :
    0x08 ≤ (displayControlByte d c b).toNat ∧ (displayControlByte d c b).toNat ≤ 0x0F := by
  cases d <;> cases c <;> cases b <;> decide

theorem functionSetByte_masked (e n f : Bool) :
    functionSetByte e n f = 0x20#8 ||| (functionSetByte e n f &&& 0x1C#8) := by
  cases e <;> cases n <;> cases f <;> decide

/-- A request that changes `CTRL` is one of the three ControlFlags requests (R78 to R80). -/
theorem ctrlAfter_ne {c : CtrlReg} (h : ctrlAfter c i ≠ c) : ∃ v,
    (i = .setDisplay v ∧ (ctrlAfter c i).byte = setField c.byte 0x04#8 v) ∨
    (i = .setCursor v ∧ (ctrlAfter c i).byte = setField c.byte 0x02#8 v) ∨
    (i = .setBlink v ∧ (ctrlAfter c i).byte = setField c.byte 0x01#8 v) := by
  cases i with
  | setDisplay v => exact ⟨v, .inl ⟨rfl, (setField_display c v).symm⟩⟩
  | setCursor v => exact ⟨v, .inr (.inl ⟨rfl, (setField_cursor c v).symm⟩)⟩
  | setBlink v => exact ⟨v, .inr (.inr ⟨rfl, (setField_blink c v).symm⟩)⟩
  | _ => exact absurd rfl h

/-- A request that changes `MODE` is one of the three ModeFlags requests (R81 to R83). -/
theorem modeAfter_ne {m : ModeReg} (h : modeAfter m i ≠ m) : ∃ v,
    (i = .setBitMode v ∧ (modeAfter m i).byte = setField m.byte 0x10#8 v) ∨
    (i = .setLines v ∧ (modeAfter m i).byte = setField m.byte 0x08#8 v) ∨
    (i = .setFont v ∧ (modeAfter m i).byte = setField m.byte 0x04#8 v) := by
  cases i with
  | setBitMode v => exact ⟨v, .inl ⟨rfl, (setField_eight m v).symm⟩⟩
  | setLines v => exact ⟨v, .inr (.inl ⟨rfl, (setField_twoLines m v).symm⟩)⟩
  | setFont v => exact ⟨v, .inr (.inr ⟨rfl, (setField_bigFont m v).symm⟩)⟩
  | _ => exact absurd rfl h

/-- Settles O30: `CTRL` changes without reset only by an executed request, and only three requests write it. -/
theorem ctrlWriters : Obligations.CtrlWriters := by
  intro s t h
  refine ⟨displayControlByte_range _ _ _, fun hr => ?_, fun hr hne => ?_⟩
  · cases (step_of_reset hr).symm.trans h
    exact (by decide : (CtrlReg.ofByte 0x08#8).byte = 0x08#8)
  · have hne : t.ctrl ≠ s.ctrl := fun he => hne (congrArg CtrlReg.byte he)
    obtain ⟨i, ha, hl, hd, hc⟩ := executed_of_flags_change (step_flags h hr).1 hne
    rw [hc] at hne
    simp only [State.ctrlQ, hc, hd, Decoded.instr.injEq]
    exact ⟨ha, hl, ctrlAfter_ne hne⟩

/-- Settles O31: `MODE` changes without reset only by an executed request, and only three requests write it. -/
theorem modeWriters : Obligations.ModeWriters := by
  intro s t h
  refine ⟨⟨_, functionSetByte_masked _ _ _⟩, fun hr => ?_, fun hr hne => ?_⟩
  · cases (step_of_reset hr).symm.trans h
    exact (by decide : (ModeReg.ofByte 0x30#8).byte = 0x30#8)
  · have hne : t.mode ≠ s.mode := fun he => hne (congrArg ModeReg.byte he)
    obtain ⟨i, ha, hl, hd, hm⟩ := executed_of_flags_change (step_flags h hr).2 hne
    rw [hm] at hne
    simp only [State.modeQ, hm, hd, Decoded.instr.injEq]
    exact ⟨ha, hl, modeAfter_ne hne⟩

/-! ## `life` and `PINMAP` (R18, R24) -/

/-- What the first INIT leaves of `life` and `PINMAP` (R69). -/
theorem firstInit_effect (hl : s.life = .uninit) (hu : RequestTo .init s u) :
    u.life = (if pinsValid s.params.numGpio s.cfgPins then .ready else .failed) ∧
    u.pinmap = if pinsValid s.params.numGpio s.cfgPins then s.cfgPins else s.pinmap := by
  cases hu with
  | initReady _ _ hv => simp [hv]
  | initFailed _ _ hv => simp [hv]
  | initAgain _ hl' => exact absurd hl hl'
  | notReady hi _ | noLine hi _ | transfer hi _ _ => exact absurd rfl hi

/-- Every request but the first INIT leaves `life` and `PINMAP`. -/
theorem request_keeps_life_pinmap (hn : ¬(i = .init ∧ s.life = .uninit)) (hu : RequestTo i s u) :
    u.life = s.life ∧ u.pinmap = s.pinmap := by
  cases hu with
  | initReady hi hl _ | initFailed hi hl _ => exact absurd ⟨hi, hl⟩ hn
  | initAgain _ _ | notReady _ _ | noLine _ _ => exact ⟨rfl, rfl⟩
  | transfer _ _ hs => obtain ⟨c, m, rs, b, long, -, rfl⟩ := hs; exact ⟨rfl, rfl⟩

theorem edgeTo_firstInit (hf : s.firstInit) (hu : EdgeTo s u) :
    u.life = (if pinsValid s.params.numGpio s.cfgPins then .ready else .failed) ∧
    u.pinmap = if pinsValid s.params.numGpio s.cfgPins then s.cfgPins else s.pinmap := by
  have ⟨⟨hr, hp, hv⟩, hw, hl⟩ := hf
  cases hu with
  | request ha hd hx =>
    obtain ⟨rfl, -⟩ := (firstInit_iff ha hd).1 hf
    exact firstInit_effect hl (requestTo_of_exec rfl hx)
  | illegal _ hd => exact absurd hf (not_firstInit_of_illegal hd)
  | reset hr' => rw [hr] at hr'; cases hr'
  | quiet _ _ hv' => rw [hv] at hv'; cases hv'
  | count _ hp' _ => exact absurd hp hp'
  | setup _ hp' _ | high _ hp' _ _ _ | post _ hp' _ | long _ hp' _ => rw [hp] at hp'; cases hp'

theorem edgeTo_keeps_life_pinmap (hf : ¬s.firstInit) (hu : EdgeTo s u) :
    (s.ports.rst = false → u.life = s.life) ∧ u.pinmap = s.pinmap := by
  cases hu with
  | reset hr => simp [hr]
  | request ha hd hx =>
    rw [firstInit_iff ha hd] at hf
    obtain ⟨hl, hm⟩ := request_keeps_life_pinmap hf (requestTo_of_exec (decodeHost_isHost hd) hx)
    exact ⟨fun _ => hl, hm⟩
  | post _ _ _ => simp
  | quiet _ _ _ | illegal _ _ | count _ _ _ | setup _ _ _ | high _ _ _ _ _ | long _ _ _ =>
    exact ⟨fun _ => rfl, rfl⟩

/-- Settles O28: the first INIT alone writes `life` without reset. -/
theorem lifecycleWriters : Obligations.LifecycleWriters := by
  intro s t h
  refine ⟨fun hr => ?_, fun hf => ?_, fun hr hf => ?_⟩
  · cases (step_of_reset hr).symm.trans h
    rfl
  · obtain ⟨u, hu, rfl⟩ := step_cases h
    have hlife := (edgeTo_firstInit hf hu).1
    exact hlife
  · obtain ⟨u, hu, rfl⟩ := step_cases h
    have hlife := (edgeTo_keeps_life_pinmap hf hu).1 hr
    exact hlife

/-- Settles O29: the first INIT writes `PINMAP` if the assignment is valid, and nothing else does. -/
theorem pinmapWriters : Obligations.PinmapWriters := by
  intro s t h
  obtain ⟨u, hu, rfl⟩ := step_cases h
  rw [afterEdge_pinmap]
  refine ⟨fun hf hv => ?_, fun hn => ?_⟩
  · simp [(edgeTo_firstInit hf hu).2, hv]
  · by_cases hf : s.firstInit
    · have hv : pinsValid s.params.numGpio s.cfgPins = false := by simpa [hf] using hn
      simp [(edgeTo_firstInit hf hu).2, hv]
    · exact (edgeTo_keeps_life_pinmap hf hu).2

end Sys2Proof.Proofs
end

section
/-! CERTIFICATE. What the command port can do to a running transfer (R17, R115), and what the outputs present: STATUS
(R27), the lines and the pins (R23, R28, R36). -/

namespace Sys2Proof.Proofs

open Sys2Proof.Machine Sys2Proof.Laws

variable {s t : State} {i : Instr}

/-! ## The command port (R17) -/

/-- The state with other levels on its input ports. -/
def withPorts (q : Ports) (s : State) : State := { s with ports := q }

/-- The next edge takes its ports from the schedule. -/
@[simp] theorem afterEdge_withPorts (q : Ports) (s : State) : (withPorts q s).afterEdge = s.afterEdge := rfl

theorem endPost_withPorts (q : Ports) (s : State) : (withPorts q s).endPost = withPorts q s.endPost := by
  cases h : s.xferLong <;> simp [State.endPost, withPorts, h]

/-- A panel instruction reads no port. -/
theorem panelExec_withPorts (hi : i.isHost = false) (q : Ports) (s : State) :
    exec i (withPorts q s) = mapNext (withPorts q) (exec i s) := by
  cases i with
  | clearDisplay | returnHome | writeLeft | shiftRight | writeRight | shiftLeft | displayControl _ _ _
  | functionSet _ _ _ | setCgram _ | setDdram _ | dataWrite _ => rfl
  | _ => simp [Instr.isHost] at hi

theorem latchLines_withPorts (q : Ports) (s : State) :
    latchLines (withPorts q s) = mapNext (withPorts q) (latchLines s) := by
  have hw : (withPorts q s).busWord = s.busWord := rfl
  unfold latchLines
  rw [hw]
  cases hd : decodePanel s.busWord with
  | instr i => exact panelExec_withPorts (decodePanel_isPanel hd) q s
  | illegal r => rfl

/-- The end of a phase reads no port. -/
theorem advance_withPorts (q : Ports) (s : State) :
    advance (withPorts q s) = mapNext (withPorts q) (advance s) := by
  have hph : (withPorts q s).phase = s.phase := rfl
  cases hp : s.phase with
  | high =>
    obtain ⟨w, f, hl⟩ := latchLines_latch s
    simp only [advance, hph, hp, latchLines_withPorts, hl, mapNext_next]
    rfl
  | post => simp only [advance, hph, hp, mapNext_next, endPost_withPorts]
  | idle | setup | long =>
    simp only [advance, hph, hp]
    rfl

/-- Of the ports, an edge of a running transfer reads the reset only. -/
theorem step_withPorts (hp : s.phase ≠ .idle) (q : Ports) (hq : q.rst = s.ports.rst) :
    step (withPorts q s) = step s := by
  have hp' : (withPorts q s).phase ≠ .idle := hp
  have hrst : (withPorts q s).ports.rst = s.ports.rst := hq
  have hcnt : (withPorts q s).cnt = s.cnt := rfl
  unfold step clockEdge
  simp only [hrst, hp, hp', hcnt, if_false]
  split
  · rfl
  · split
    · rfl
    · rw [advance_withPorts]
      cases advance s <;> rfl

/-- Settles O14: an edge of a running transfer reads no port but the reset. -/
theorem busyBlockIgnoresRequests : Obligations.BusyBlockIgnoresRequests := by
  intro s v w c hp
  exact step_withPorts hp { s.ports with reqValid := v, reqWord := w, cfgPin := c } rfl

/-- R17, R59: an accepted word is dispatched. -/
theorem step_of_accepts (ha : s.accepts) : step s = mapNext State.afterEdge (dispatchWord s.ports.reqWord s) := by
  obtain ⟨hr, hp, hv⟩ := ha
  simp [step, clockEdge, hr, hp, hv]

/-- Settles O9: the dispatch of a word that decodes is exec of its instruction. -/
theorem acceptedRequestExecutes : Obligations.AcceptedRequestExecutes := by
  intro s i ha hd
  rw [step_of_accepts ha, dispatchWord, hd]

/-! ## STATUS (R27) -/

/-- The bits of a status byte that is put together as R27 has it. -/
theorem statusByte_bits (x r n c p l : Bool) {b : Byte}
    (h : b = 0b00#2 ++ BitVec.ofBool x ++ BitVec.ofBool r ++ BitVec.ofBool n ++ BitVec.ofBool c ++ BitVec.ofBool p
      ++ BitVec.ofBool l) :
    b.getLsbD 0 = l ∧ b.getLsbD 1 = p ∧ b.getLsbD 2 = c ∧ b.getLsbD 3 = n ∧ b.getLsbD 4 = r ∧ b.getLsbD 5 = x ∧
      b.getLsbD 6 = false ∧ b.getLsbD 7 = false := by
  subst h
  revert x r n c p l
  decide

/-- Settles O27: the bits of STATUS, the errors by their codes (R96). -/
theorem statusBits : Obligations.StatusBits := by
  intro s
  obtain ⟨h0, h1, h2, h3, h4, h5, h6, h7⟩ := statusByte_bits _ _ _ _ _ _ (b := s.status) rfl
  refine ⟨?_, ?_, fun e => ?_, h6, h7⟩
  · rw [h0, decide_eq_true_iff]
  · rw [h1, decide_eq_true_iff]
  · cases e with
    | cfg => exact h2
    | notInit => exact h3
    | reinit => exact h4
    | illegal => exact h5

/-! ## The lines (R36) -/

/-- Settles O32: both transfers load the byte, whose bit `i` is its quotient by `2 ^ i` modulo 2. -/
theorem linesCarryBits : Obligations.LinesCarryBits := by
  intro s t b hl h
  have hbyte : t.dQ = b := by
    obtain h | h := h <;> simp only [exec, execCmd, execData, requireReady_ready hl] at h <;> cases h <;> rfl
  have hbit : ∀ i, b.getLsbD i = (b.toNat / 2 ^ i % 2 == 1) := fun i => by
    rw [← BitVec.testBit_toNat, Nat.testBit_eq_decide_div_mod_eq, beq_eq_decide]
  simp only [State.roleLevel, hbyte, hbit]
  rfl

/-! ## The pins (R23, R28) -/

theorem role_mem_list (r : Role) : r ∈ Role.list := by cases r <;> decide

theorem distinct_iff_nodup (l : List Nat) : distinct l = true ↔ l.Nodup := by
  induction l with
  | nil => simp [distinct]
  | cons x r ih => simp [distinct, ih]

/-- R68: a valid assignment gives each role a pin of the platform, and no two roles one pin. -/
theorem pinsValid_iff {n : Nat} {p : PinAssignment} :
    pinsValid n p = true ↔ (∀ r, pinOf p r < n) ∧ Function.Injective (pinOf p) := by
  have hlist : p.toList = Role.list.map (pinOf p) := rfl
  have hnodup : Role.list.Nodup := by decide
  simp only [pinsValid, Bool.and_eq_true, distinct_iff_nodup, hlist, List.nodup_map_iff_inj_on hnodup,
    List.all_map, List.all_eq_true, role_mem_list, Function.comp_apply, decide_eq_true_eq, forall_const,
    Function.Injective]

theorem pinUsed_eq_false {p : Nat} (h : ∀ r, pinOf s.pinmap r ≠ p) : s.pinUsed p = false := by
  have hnone : (Role.list.any fun r => pinOf s.pinmap r == p) = false := by
    simp only [List.any_eq_false, beq_iff_eq]
    exact fun r _ => h r
  simp [State.pinUsed, hnone]

theorem pinUsed_notReady (h : s.life ≠ .ready) (p : Nat) : s.pinUsed p = false := by
  simp [State.pinUsed, h]

/-- A pin that is not used reads 0 on all three outputs. -/
theorem outputs_unused {p : Nat} (h : s.pinUsed p = false) :
    s.gpioOe p = false ∧ s.gpioPue p = false ∧ s.gpioO p = false :=
  ⟨h, h, by simp [State.gpioO, h]⟩

theorem pinUsed_role (hl : s.life = .ready) (hv : pinsValid s.params.numGpio s.pinmap = true) (r : Role) :
    s.pinUsed (pinOf s.pinmap r) = true := by
  have hlt := (pinsValid_iff.1 hv).1 r
  have hany : (Role.list.any fun q => pinOf s.pinmap q == pinOf s.pinmap r) = true :=
    List.any_eq_true.2 ⟨r, role_mem_list r, beq_self_eq_true _⟩
  simp [State.pinUsed, hlt, hl, hany]

/-- The pin of a role carries the level of that role, because no other role has it. -/
theorem gpioO_role (hl : s.life = .ready) (hv : pinsValid s.params.numGpio s.pinmap = true) (r : Role) :
    s.gpioO (pinOf s.pinmap r) = s.roleLevel r := by
  have hinj := (pinsValid_iff.1 hv).2
  have hlevel : (Role.list.any fun q => pinOf s.pinmap q == pinOf s.pinmap r && s.roleLevel q) = true ↔
      s.roleLevel r = true := by
    simp only [List.any_eq_true, Bool.and_eq_true, beq_iff_eq, hinj.eq_iff]
    exact ⟨fun ⟨q, _, hq, hlev⟩ => hq ▸ hlev, fun h => ⟨r, role_mem_list r, rfl, h⟩⟩
  rw [State.gpioO, pinUsed_role hl hv, Bool.true_and]
  exact Bool.eq_iff_iff.2 hlevel

/-- Settles O33: the outputs of used and of unused pins, and the lines in READY and in another lifecycle. -/
theorem pinRouting : Obligations.PinRouting := by
  intro s
  refine ⟨decide_eq_true_iff, decide_eq_true_iff, fun hl r => ?_, fun hl r => ?_,
    fun hl hv => ⟨fun r => ?_, fun p hp => ?_⟩, fun hl p => ?_⟩
  · simp [State.lineSeen, State.lcdOe, hl]
  · simp [State.lineSeen, State.lcdOe, hl]
  · exact ⟨pinUsed_role hl hv r, pinUsed_role hl hv r, gpioO_role hl hv r⟩
  · exact outputs_unused (pinUsed_eq_false hp)
  · exact outputs_unused (pinUsed_notReady hl p)

end Sys2Proof.Proofs
end

section
/-! CERTIFICATE. What a reset edge leaves of the panel (R118, R119), and which changes of phase an edge can make (R61,
R62). -/

namespace Sys2Proof.Proofs

open Sys2Proof.Machine Sys2Proof.Laws

variable {s u : State} {i : Instr}

/-! ## The reset edge (R118, R119) -/

/-- Settles O46: a reset edge leaves a blank panel, and a lost one where it cut a transfer short. -/
theorem resetForgetsPanel : Obligations.ResetForgetsPanel := by
  intro s t hr hst
  cases (step_of_reset hr).symm.trans hst
  refine ⟨atReset_blank s.phase s.panel, fun hp => ?_⟩
  rw [afterEdge_panel, doReset_panel, Panel.atReset, if_neg hp]

/-! ## The changes of phase (R61, R62) -/

/-- The only request that changes the phase is one that starts a transfer, in READY. -/
theorem requestTo_phase (hu : RequestTo i s u) (h : u.phase ≠ s.phase) : u.phase = .setup ∧ s.life = .ready := by
  cases hu with
  | transfer _ hl hs =>
    obtain ⟨c, m, rs, b, long, -, rfl⟩ := hs
    exact ⟨rfl, hl⟩
  | initReady _ _ _ | initFailed _ _ _ | initAgain _ _ | notReady _ _ | noLine _ _ => exact absurd rfl h

/-- Settles O15: one change of phase for each case of an edge that is not a reset. -/
theorem phasesInOrder : Obligations.PhasesInOrder := by
  intro s t hst hr hne
  obtain ⟨u, hu, rfl⟩ := step_cases hst
  rw [afterEdge_phase] at hne ⊢
  cases hu with
  | reset hr' => simp [hr] at hr'
  | quiet _ _ _ | illegal _ _ | count _ _ _ => exact absurd rfl hne
  | request ha hd hx =>
    obtain ⟨hsetup, hl⟩ := requestTo_phase (requestTo_of_exec (decodeHost_isHost hd) hx) hne
    exact .inl ⟨ha.2.1, hsetup, ha.2.2, hl⟩
  | setup _ hp _ => exact .inr (.inl ⟨hp, rfl⟩)
  | high _ hp _ _ _ => exact .inr (.inr (.inl ⟨hp, rfl⟩))
  | post _ hp _ =>
    cases hx : s.xferLong with
    | true => exact .inr (.inr (.inr (.inl ⟨hp, by simp [hx], rfl⟩)))
    | false => exact .inr (.inr (.inr (.inr (.inl ⟨hp, by simp [hx], rfl⟩))))
  | long _ hp _ => exact .inr (.inr (.inr (.inr (.inr ⟨hp, rfl⟩))))

end Sys2Proof.Proofs
end

section
/-! CERTIFICATE. Runs through the phases of a transfer, each as the whole state at its end (R20, R58, R62, R65), and the
run of a CLEAR (R74). -/

namespace Sys2Proof.Proofs

open Sys2Proof.Machine Sys2Proof.Laws

variable {s u : State} {w : BusWord} {f : Nat → Panel → Panel} {j k : Nat}

/-! ## The inputs after some edges -/

/-- The state with the index and the inputs of `k` edges later (log 1, 8); the block is as it was. -/
def passEdges (k : Nat) (s : State) : State :=
  { s with
    edge := s.edge + k
    ports := (s.inputs.drop k).headD Ports.quiet
    sched := s.sched.drop k }

theorem afterEdge_eq_passEdges (s : State) : s.afterEdge = passEdges 1 s := by
  simp [State.afterEdge, passEdges, State.inputs]

theorem noResetFor_mono (h : s.noResetFor (j + k)) : s.noResetFor j := by
  intro q hq
  exact h q ((List.take_prefix_take_left (Nat.le_add_right j k)).subset hq)

theorem passEdges_passEdges (j k : Nat) (s : State) : passEdges k (passEdges j s) = passEdges (j + k) s := by
  cases k with
  | zero => simp [passEdges, State.inputs]
  | succ k => simp [passEdges, State.inputs, ← Nat.add_assoc]

/-- Past its schedule the host is quiet, which is no reset (log 1). -/
theorem noResetFor_passEdges (h : s.noResetFor (j + k)) : (passEdges j s).noResetFor k := by
  intro q hq
  have hrest : (passEdges j s).inputs = (s.inputs.drop j).headD Ports.quiet :: (s.inputs.drop j).tail := by
    simp [passEdges, State.inputs]
  rw [hrest] at hq
  cases hd : s.inputs.drop j with
  | nil =>
    have hquiet : q = Ports.quiet := by simpa [hd] using List.mem_of_mem_take hq
    rw [hquiet]; rfl
  | cons p r =>
    rw [hd, List.headD_cons, List.tail_cons, ← hd, List.take_drop] at hq
    exact h q (List.mem_of_mem_drop hq)

/-! ## Runs through the phases -/

theorem run_add (h : run j s = .next u) : run (j + k) s = run k u := by
  induction j generalizing s with
  | zero => cases h; rw [Nat.zero_add]
  | succ j ih =>
    obtain ⟨v, hv, h⟩ := run_succ_eq_next.1 h
    rw [Nat.add_right_comm, run_succ hv, ih h]

theorem run_one (s : State) : run 1 s = step s := by
  rw [run]
  cases step s <;> rfl

/-- R58: a phase goes on while its counter is above 1. -/
theorem step_of_count (hr : s.ports.rst = false) (hp : s.phase ≠ .idle) (hc : 1 < s.cnt) :
    step s = .next s.countDown.afterEdge := by
  simp [step, clockEdge, hr, hp, hc]

/-- R58: a phase ends where its counter is not above 1. -/
theorem step_of_end (hr : s.ports.rst = false) (hp : s.phase ≠ .idle) (hc : s.cnt ≤ 1) :
    step s = mapNext State.afterEdge (advance s) := by
  simp [step, clockEdge, hr, hp, Nat.not_lt.2 hc]

/-- The state after `k` edges within a phase: only the counter has moved. -/
def countedDown (k : Nat) (s : State) : State := { passEdges k s with cnt := s.cnt - k }

theorem run_countedDown (hp : s.phase ≠ .idle) (hk : k < s.cnt) (hn : s.noResetFor k) :
    run k s = .next (countedDown k s) := by
  induction k with
  | zero => simp [countedDown, passEdges, State.inputs]
  | succ k ih =>
    have hn' : (countedDown k s).noResetFor 1 := noResetFor_passEdges hn
    have hc : 1 < (countedDown k s).cnt := by simp only [countedDown]; omega
    have hnext : (countedDown k s).countDown.afterEdge = countedDown (k + 1) s := by
      simp only [countedDown, ← passEdges_passEdges k 1 s, ← afterEdge_eq_passEdges]
      rfl
    rw [run_add (ih (by omega) (noResetFor_mono hn)), run_one, step_of_count (noReset_head hn') hp hc, hnext]

/-- The state before the last edge of a phase of `k` cycles. -/
def lastCycle (k : Nat) (s : State) : State := passEdges (k - 1) { s with cnt := 1 }

/-- A phase lasts as many edges as its counter says, and ends at the last of them (R20, R58). -/
theorem run_phase (hp : s.phase ≠ .idle) (hc : s.cnt = k) (hk : 1 ≤ k) (hn : s.noResetFor k)
    (hadv : advance (lastCycle k s) = .next (passEdges (k - 1) u)) : run k s = .next (passEdges k u) := by
  obtain ⟨n, rfl⟩ := Nat.exists_eq_add_of_le' hk
  rw [Nat.add_sub_cancel] at hadv
  have hlast : countedDown n s = lastCycle (n + 1) s := by
    simp only [countedDown, lastCycle, hc, Nat.add_sub_cancel_left, Nat.add_sub_cancel]
    rfl
  have hn' : (lastCycle (n + 1) s).noResetFor 1 := hlast ▸ noResetFor_passEdges hn
  rw [run_add (run_countedDown hp (by omega) (noResetFor_mono hn)), hlast, run_one,
    step_of_end (noReset_head hn') hp le_rfl, hadv, mapNext_next, afterEdge_eq_passEdges, passEdges_passEdges]

theorem run_setup (hp : s.phase = .setup) (hc : s.cnt = k) (hk : 1 ≤ k) (hn : s.noResetFor k) :
    run k s = .next (passEdges k s.raiseEnable) := by
  have hlast : (lastCycle k s).phase = .setup := hp
  refine run_phase (by simp [hp]) hc hk hn ?_
  simp only [advance, hlast]
  rfl

/-- The state in which the enable has fallen at the edge of index `e` and the panel has latched a word. -/
def latchedAt (e : Nat) (w : BusWord) (f : Nat → Panel → Panel) (s : State) : State :=
  { (({ s with edge := e } : State).latch w f).lowerEnable with edge := s.edge }

theorem run_high (hp : s.phase = .high) (hc : s.cnt = k) (hk : 1 ≤ k)
    (hn : s.noResetFor k) (hl : ∀ v : State, v.busWord = s.busWord → latchLines v = .next (v.latch w f)) :
    run k s = .next (passEdges k (latchedAt (s.edge + (k - 1)) w f s)) := by
  have hlast : (lastCycle k s).phase = .high := hp
  refine run_phase (by simp [hp]) hc hk hn ?_
  simp only [advance, hlast, hl (lastCycle k s) rfl, mapNext_next]
  rfl

theorem endPost_passEdges (k : Nat) (s : State) : (passEdges k s).endPost = passEdges k s.endPost := by
  have hx : (passEdges k s).xferLong = s.xferLong := rfl
  unfold State.endPost
  rw [hx]
  split <;> rfl

theorem run_post (hp : s.phase = .post) (hc : s.cnt = k) (hk : 1 ≤ k) (hn : s.noResetFor k) :
    run k s = .next (passEdges k ({ s with cnt := 1 } : State).endPost) := by
  have hlast : (lastCycle k s).phase = .post := hp
  refine run_phase (by simp [hp]) hc hk hn ?_
  simp only [advance, hlast]
  rw [lastCycle, endPost_passEdges]

theorem run_long (hp : s.phase = .long) (hc : s.cnt = k) (hk : 1 ≤ k) (hn : s.noResetFor k) :
    run k s = .next (passEdges k ({ s with cnt := 1 } : State).endLong) := by
  have hlast : (lastCycle k s).phase = .long := hp
  refine run_phase (by simp [hp]) hc hk hn ?_
  simp only [advance, hlast]
  rfl

/-- SETUP and HIGH: the word on the lines is latched at the last edge of HIGH (R62, R63). -/
theorem run_pulse (hok : s.params.ok = true) (hp : s.phase = .setup)
    (hc : s.cnt = s.params.nSu) (hn : s.noResetFor (s.params.nSu + s.params.nPw))
    (hl : ∀ v : State, v.busWord = s.busWord → latchLines v = .next (v.latch w f)) :
    run (s.params.nSu + s.params.nPw) s = .next (passEdges (s.params.nSu + s.params.nPw)
      (latchedAt (s.edge + s.params.nSu + (s.params.nPw - 1)) w f s)) := by
  have hsu : 1 ≤ s.params.nSu := phaseLength_pos hok (ph := .setup) (by simp)
  have hpw : 1 ≤ s.params.nPw := phaseLength_pos hok (ph := .high) (by simp)
  rw [run_add (run_setup hp hc hsu (noResetFor_mono hn)), ← passEdges_passEdges]
  exact run_high (s := passEdges s.params.nSu s.raiseEnable) rfl rfl hpw (noResetFor_passEdges hn) hl

/-- POST and LONG of a long transfer (R62). -/
theorem run_post_and_long (hok : s.params.ok = true) (hp : s.phase = .post) (hx : s.xferLong = true)
    (hc : s.cnt = s.params.nPost) (hn : s.noResetFor (s.params.nPost + s.params.nLong)) :
    run (s.params.nPost + s.params.nLong) s = .next (passEdges (s.params.nPost + s.params.nLong)
      { s with rsQ := false, phase := .idle, cnt := 1 }) := by
  have hpost : 1 ≤ s.params.nPost := phaseLength_pos hok (ph := .post) (by simp)
  have hlong : 1 ≤ s.params.nLong := phaseLength_pos hok (ph := .long) (by simp)
  have hend := run_post hp hc hpost (noResetFor_mono hn)
  rw [State.endPost, if_pos hx] at hend
  rw [run_add hend, ← passEdges_passEdges]
  exact run_long (s := passEdges s.params.nPost { s with rsQ := false, phase := .long, cnt := s.params.nLong })
    rfl rfl hlong (noResetFor_passEdges hn)

/-- R65: a long transfer, from its first cycle of SETUP. -/
theorem run_longTransfer (hok : s.params.ok = true) (hp : s.phase = .setup) (hx : s.xferLong = true)
    (hc : s.cnt = s.params.nSu) (hn : s.noResetFor (normalCycles s.params + s.params.nLong))
    (hl : ∀ v : State, v.busWord = s.busWord → latchLines v = .next (v.latch w f)) :
    run (normalCycles s.params + s.params.nLong) s = .next (passEdges (normalCycles s.params + s.params.nLong)
      { latchedAt (s.edge + s.params.nSu + (s.params.nPw - 1)) w f s with
        rsQ := false, phase := .idle, cnt := 1 }) := by
  have hsum : normalCycles s.params + s.params.nLong =
      s.params.nSu + s.params.nPw + (s.params.nPost + s.params.nLong) := Nat.add_assoc _ _ _
  rw [hsum] at hn ⊢
  rw [run_add (run_pulse hok hp hc (noResetFor_mono hn) hl), ← passEdges_passEdges (s.params.nSu + s.params.nPw)]
  exact run_post_and_long (s := passEdges (s.params.nSu + s.params.nPw)
    (latchedAt (s.edge + s.params.nSu + (s.params.nPw - 1)) w f s)) hok rfl hx rfl (noResetFor_passEdges hn)

/-! ## A CLEAR (R74) -/

/-- The whole state after a CLEAR: its transfer is over, its event recorded, the panel cleared under the premise of
log 18. -/
def afterClear (s : State) : State :=
  passEdges (normalCycles s.params + s.params.nLong + 1)
    { s with
      phase := .idle
      cnt := 1
      xferLong := true
      rsQ := false
      enQ := false
      dQ := 0x01#8
      trace := s.trace ++ [{ edge := s.edge + s.params.nSu + s.params.nPw, rs := false, byte := 0x01#8 }]
      panel := if s.params.poweronWait ≤ s.edge then s.panel.latched (Panel.onClearDisplay s.free) else .lost
      free := s.free + 1 }

theorem afterClear_panel (s : State) : (afterClear s).panel =
    if s.params.poweronWait ≤ s.edge then s.panel.latched (Panel.onClearDisplay s.free) else .lost := rfl

/-- R47, R74: the word of CLEAR starts a long transfer of 0x01. -/
theorem step_clear (hl : s.life = .ready) (ha : s.accepts) (hw : s.ports.reqWord = 0x400#12) :
    step s = .next (passEdges 1 (s.startXfer false 0x01#8 true)) := by
  have hd : decodeHost 0x400#12 = .instr .clear := by decide
  rw [step_of_accepts ha, hw, dispatchWord, hd]
  simp only [exec, execClear, requireReady_ready hl, mapNext_next, afterEdge_eq_passEdges]

/-- R52, R63: the lines of a CLEAR make the panel run CLEAR_DISPLAY. -/
theorem latchLines_clear (hw : s.busWord = busWord false 0x01#8) :
    latchLines s = .next (s.latch (busWord false 0x01#8) Panel.onClearDisplay) := by
  have hdec : decodePanel (busWord false 0x01#8) = .instr .clearDisplay := by decide
  rw [latchLines, hw, hdec]
  rfl

/-- Under R6, the premise of a clear is that POWERON_WAIT had passed at its accept edge (log 18). -/
theorem latchedAt_clear_panel (hok : s.params.ok = true) :
    (latchedAt (s.edge + s.params.nSu + s.params.nPw) w Panel.onClearDisplay s).panel = (afterClear s).panel := by
  have hstart : s.edge + s.params.nSu + s.params.nPw - (s.params.nSu + s.params.nPw) = s.edge := by omega
  simp [latchedAt, State.panelPremise, hok, hstart, afterClear_panel]

/-- R65, R74: a CLEAR is a step that starts its transfer, and the long transfer of 0x01. -/
theorem run_clear (hok : s.params.ok = true) (hl : s.life = .ready) (ha : s.accepts) (hw : s.ports.reqWord = 0x400#12)
    (hn : s.noResetFor (normalCycles s.params + s.params.nLong + 1)) :
    run (normalCycles s.params + s.params.nLong + 1) s = .next (afterClear s) := by
  have hpw : 1 ≤ s.params.nPw := phaseLength_pos hok (ph := .high) (by simp)
  have hlatch : s.edge + s.params.nSu + s.params.nPw = s.edge + 1 + s.params.nSu + (s.params.nPw - 1) := by omega
  have hpanel := latchedAt_clear_panel (w := busWord false 0x01#8) hok
  rw [Nat.add_comm _ 1] at hn
  rw [run_succ (step_clear hl ha hw)]
  refine (run_longTransfer (s := passEdges 1 (s.startXfer false 0x01#8 true)) hok rfl rfl rfl
    (noResetFor_passEdges hn) fun _ => latchLines_clear).trans (congrArg Host.Outcome.next ?_)
  rw [afterClear_panel, hlatch] at hpanel
  rw [afterClear, Nat.add_comm _ 1, ← passEdges_passEdges 1, ← hpanel, hlatch]
  rfl

/-- R38, R74: the premise of a clear holds of the next one too, which then changes nothing of the panel. -/
theorem afterClear_afterClear_panel (s : State) : (afterClear (afterClear s)).panel = (afterClear s).panel := by
  have hparams : (afterClear s).params = s.params := rfl
  have hlater : s.edge ≤ (afterClear s).edge := Nat.le_add_right _ _
  simp only [afterClear_panel, hparams]
  by_cases hwait : s.params.poweronWait ≤ s.edge
  · rw [if_pos hwait, if_pos (hwait.trans hlater), latched_clear_idem]
  · rw [if_neg hwait, latched_stuck (.inl rfl), ite_self]

/-- Settles O51: each CLEAR runs to the state of `afterClear`, and a second one finds the block and the panel as it
leaves them. -/
theorem clearTwiceIsClearOnce : Obligations.ClearTwiceIsClearOnce := by
  intro s t t' hok hl ha hw hn hrun ha' hw' hn' hrun'
  cases (run_clear hok hl ha hw hn).symm.trans hrun
  cases (run_clear (s := afterClear s) hok hl ha' hw' hn').symm.trans hrun'
  refine ⟨?_, ?_⟩
  · simp [afterClear, passEdges]
  · rw [← afterClear_afterClear_panel s]
    rfl

end Sys2Proof.Proofs
end

section
/-! CERTIFICATE. The two encoded languages: the fields and the ARG forms of a host word (R46 to R50), the bytes of the
panel formats (R51 to R54), and the round trip of the decoder and the encoder over both. -/

namespace Sys2Proof.Proofs

open Sys2Proof.Machine Sys2Proof.Laws

variable {i : Instr} {arg b : Byte} {mk : Bool → Instr} {w : HostWord}

/-! ## Fields and ARG forms of a host word (R46, R48) -/

@[simp] theorem hostWord_op (op : BitVec 4) (arg : Byte) : (hostWord op arg).extractLsb' 8 4 = op :=
  BitVec.extractLsb'_append_eq_left

@[simp] theorem hostWord_arg (op : BitVec 4) (arg : Byte) : (hostWord op arg).extractLsb' 0 8 = arg :=
  BitVec.extractLsb'_append_eq_right

/-- A host word is its two fields (R46). -/
theorem hostWord_fields (w : HostWord) : hostWord (w.extractLsb' 8 4) (w.extractLsb' 0 8) = w :=
  (BitVec.extractLsb'_append_extractLsb'_eq_extractLsb' rfl).trans BitVec.extractLsb'_eq_self

/-- Each row of the opcode map (R47) is found by the number of its OP. -/
theorem host_of_op_toNat {op op' : BitVec 4} (h : op.toNat = op'.toNat) (arg : Byte) :
    Code.host (hostWord op' arg) = .host (hostWord op arg) := by
  rw [BitVec.eq_of_toNat_eq h]

@[simp] theorem argNone_zero (i : Instr) : argNone 0x00#8 i = .instr i := rfl

@[simp] theorem argBool_boolArg (v : Bool) (mk : Bool → Instr) : argBool (boolArg v) mk = .instr (mk v) := by
  cases v <;> rfl

/-- Where ARG[7:1] = 0, ARG is the bool form of its bit 0 (R48). -/
theorem boolArg_of_reserved : ∀ arg : Byte, arg.extractLsb' 1 7 = 0#7 → boolArg (arg.getLsbD 0) = arg := by decide

theorem argBool_eq_instr : argBool arg mk = .instr i ↔ ∃ v, arg = boolArg v ∧ mk v = i := by
  constructor
  · unfold argBool
    split
    · rename_i hres
      intro h
      exact ⟨arg.getLsbD 0, (boolArg_of_reserved arg hres).symm, Decoded.instr.inj h⟩
    · simp
  · rintro ⟨v, rfl, rfl⟩
    exact argBool_boolArg v mk

/-! ## The panel bytes (R51, R52) -/

theorem busWord_rs (rs : Bool) (d : Byte) : (busWord rs d).getLsbD 8 = rs := by
  cases rs <;> exact BitVec.getLsbD_append

theorem busWord_data (rs : Bool) (d : Byte) : (busWord rs d).extractLsb' 0 8 = d :=
  BitVec.extractLsb'_append_eq_right

/-- A bus word is its two fields (R51). -/
theorem busWord_fields : ∀ w : BusWord, busWord (w.getLsbD 8) (w.extractLsb' 0 8) = w := by decide

theorem panel_of_byte {d : Byte} (h : d = b) : Code.panel (busWord false d) = .panel (busWord false b) := by
  rw [h]

theorem decodePanel_data (b : Byte) : decodePanel (busWord true b) = .instr (.dataWrite b) := by
  rw [decodePanel, busWord_rs, busWord_data, if_pos rfl]

theorem decodePanel_instrByte (b : Byte) : decodePanel (busWord false b) = decodeInstrByte b := by
  rw [decodePanel, busWord_rs, busWord_data, if_neg Bool.false_ne_true]

theorem decodeInstrByte_setDdramByte (a : BitVec 7) : decodeInstrByte (setDdramByte a) = .instr (.setDdram a) := by
  have h7 : (setDdramByte a).getLsbD 7 = true := BitVec.getLsbD_append
  have ha : (setDdramByte a).extractLsb' 0 7 = a := BitVec.extractLsb'_append_eq_right
  rw [decodeInstrByte, if_pos h7, ha]

theorem decodeInstrByte_setCgramByte (a : BitVec 6) : decodeInstrByte (setCgramByte a) = .instr (.setCgram a) := by
  have h7 : (setCgramByte a).getLsbD 7 = false := BitVec.getLsbD_append
  have h6 : (setCgramByte a).getLsbD 6 = true := BitVec.getLsbD_append
  have ha : (setCgramByte a).extractLsb' 0 6 = a := BitVec.extractLsb'_append_eq_right
  rw [decodeInstrByte, if_neg (ne_true_of_eq_false h7), if_pos h6, ha]

theorem decodeInstrByte_functionSetByte (dl n f : Bool) :
    decodeInstrByte (functionSetByte dl n f) = .instr (.functionSet dl n f) := by
  cases dl <;> cases n <;> cases f <;> rfl

theorem decodeInstrByte_displayControlByte (d c b : Bool) :
    decodeInstrByte (displayControlByte d c b) = .instr (.displayControl d c b) := by
  cases d <;> cases c <;> cases b <;> rfl

/-! ## Decoding an encoding -/

/-- Settles O2, by the form of the argument for a host word and by the format of the byte for a bus word. -/
theorem decodeInvertsEncode : Obligations.DecodeInvertsEncode := by
  intro i
  cases i with
  | init | clear | home => rfl
  | cmd b | data b | selectLine b => simp [encode, decode, decodeHost]
  | setDir v | setDisplay v | setCursor v | setBlink v | setBitMode v | setLines v | setFont v =>
    simp [encode, decode, decodeHost]
  | clearDisplay | returnHome | writeLeft | shiftRight | writeRight | shiftLeft => rfl
  | displayControl d c b => exact (decodePanel_instrByte _).trans (decodeInstrByte_displayControlByte d c b)
  | functionSet dl n f => exact (decodePanel_instrByte _).trans (decodeInstrByte_functionSetByte dl n f)
  | setCgram a => exact (decodePanel_instrByte _).trans (decodeInstrByte_setCgramByte a)
  | setDdram a => exact (decodePanel_instrByte _).trans (decodeInstrByte_setDdramByte a)
  | dataWrite b => exact decodePanel_data b

/-! ## The byte that each range of R54 holds -/

/-- R52: from 0x80 up a byte is a SET_DDRAM byte. -/
theorem setDdramByte_of_range : ∀ b : Byte, 0x80 ≤ b.toNat → setDdramByte (BitVec.ofNat 7 b.toNat) = b := by decide

/-- R52: from 0x40 to 0x7F a byte is a SET_CGRAM byte. -/
theorem setCgramByte_of_range : ∀ b : Byte, 0x40 ≤ b.toNat → ¬0x80 ≤ b.toNat →
    setCgramByte (BitVec.ofNat 6 b.toNat) = b := by decide

/-- R52: from 0x20 to 0x3F a byte with D1:D0 = 0 is a FUNCTION_SET byte. -/
theorem functionSetByte_of_range : ∀ b : Byte, 0x20 ≤ b.toNat → ¬0x40 ≤ b.toNat → b.toNat % 4 = 0 →
    functionSetByte (b.toNat / 16 % 2 == 1) (b.toNat / 8 % 2 == 1) (b.toNat / 4 % 2 == 1) = b := by decide

/-- R52: from 0x08 to 0x0F a byte is a DISPLAY_CONTROL byte. -/
theorem displayControlByte_of_range : ∀ b : Byte, 0x08 ≤ b.toNat → ¬0x10 ≤ b.toNat →
    displayControlByte (b.toNat / 4 % 2 == 1) (b.toNat / 2 % 2 == 1) (b.toNat % 2 == 1) = b := by decide

/-- R54: from 0x20 to 0x3F a byte with D1:D0 nonzero has no name. -/
theorem decodeInstrByte_lowBits : ∀ b : Byte, 0x20 ≤ b.toNat → ¬0x40 ≤ b.toNat → ¬b.toNat % 4 = 0 →
    decodeInstrByte b = .illegal .unnamedByte := by decide

/-- R54: the bytes from 0x10 to 0x1F have no name. -/
theorem decodeInstrByte_bit4 : ∀ b : Byte, 0x10 ≤ b.toNat → ¬0x20 ≤ b.toNat →
    decodeInstrByte b = .illegal .unnamedByte := by decide

/-! ## Decoding a bus word (R51, R54) -/

/-- Settles O5: the byte of each range is the byte of its format, which decodes to its instruction. -/
theorem busWordClassification : Obligations.BusWordClassification := by
  intro b
  refine ⟨decodePanel_data b, ?_⟩
  rw [decodePanel_instrByte]
  by_cases h7 : 0x80 ≤ b.toNat
  · rw [if_pos h7, ← decodeInstrByte_setDdramByte, setDdramByte_of_range b h7]
  rw [if_neg h7]
  by_cases h6 : 0x40 ≤ b.toNat
  · rw [if_pos h6, ← decodeInstrByte_setCgramByte, setCgramByte_of_range b h6 h7]
  rw [if_neg h6]
  by_cases h5 : 0x20 ≤ b.toNat
  · rw [if_pos h5]
    by_cases hlow : b.toNat % 4 = 0
    · rw [if_pos hlow, ← decodeInstrByte_functionSetByte, functionSetByte_of_range b h5 h6 hlow]
    · rw [if_neg hlow, decodeInstrByte_lowBits b h5 h6 hlow]
  rw [if_neg h5]
  by_cases h4 : 0x10 ≤ b.toNat
  · rw [if_pos h4, decodeInstrByte_bit4 b h4 h5]
  rw [if_neg h4]
  by_cases h3 : 0x08 ≤ b.toNat
  · rw [if_pos h3, ← decodeInstrByte_displayControlByte, displayControlByte_of_range b h3 h4]
  rw [if_neg h3]
  -- The eight bytes that are left are the shortest rows of R52, and 0x00 and 0x03.
  clear h7 h6 h5 h4
  revert b
  decide

/-! ## Encoding what was decoded (R49, R54) -/

/-- R50: by the row of the opcode map, and in it by the form of the argument. -/
theorem encode_of_decodeHost (h : decodeHost w = .instr i) : encode i = .host w := by
  rw [← hostWord_fields w] at h ⊢
  generalize w.extractLsb' 8 4 = op at h ⊢
  generalize w.extractLsb' 0 8 = arg at h ⊢
  unfold decodeHost at h
  rw [hostWord_op, hostWord_arg] at h
  dsimp only at h
  split at h
  case h_1 hop | h_4 hop | h_5 hop =>
    obtain ⟨rfl, rfl⟩ := argNone_eq_instr.1 h
    exact host_of_op_toNat hop _
  case h_2 hop | h_3 hop | h_7 hop =>
    cases h
    exact host_of_op_toNat hop _
  case h_6 hop | h_8 hop | h_9 hop | h_10 hop | h_11 hop | h_12 hop | h_13 hop =>
    obtain ⟨v, rfl, rfl⟩ := argBool_eq_instr.1 h
    exact host_of_op_toNat hop _
  case h_14 => cases h

/-- The bytes below 0x08, of which 0x00 and 0x03 have no name (R52, R54). -/
theorem instrByte_below_8 : ∀ b : Byte, ¬0x08 ≤ b.toNat → decodeInstrByte b = .illegal .unnamedByte ∨
    ∃ i ∈ [Instr.clearDisplay, .returnHome, .writeLeft, .shiftRight, .writeRight, .shiftLeft],
      encode i = .panel (busWord false b) := by decide

/-- R54: an instruction byte without a name is refused, and one with a name is the byte of a format. -/
theorem instrByte_unnamed_or_encoded (b : Byte) :
    decodeInstrByte b = .illegal .unnamedByte ∨ ∃ i, encode i = .panel (busWord false b) := by
  by_cases h7 : 0x80 ≤ b.toNat
  · exact .inr ⟨.setDdram _, panel_of_byte (setDdramByte_of_range b h7)⟩
  by_cases h6 : 0x40 ≤ b.toNat
  · exact .inr ⟨.setCgram _, panel_of_byte (setCgramByte_of_range b h6 h7)⟩
  by_cases h5 : 0x20 ≤ b.toNat
  · by_cases hlow : b.toNat % 4 = 0
    · exact .inr ⟨.functionSet _ _ _, panel_of_byte (functionSetByte_of_range b h5 h6 hlow)⟩
    · exact .inl (decodeInstrByte_lowBits b h5 h6 hlow)
  by_cases h4 : 0x10 ≤ b.toNat
  · exact .inl (decodeInstrByte_bit4 b h4 h5)
  by_cases h3 : 0x08 ≤ b.toNat
  · exact .inr ⟨.displayControl _ _ _, panel_of_byte (displayControlByte_of_range b h3 h4)⟩
  · exact (instrByte_below_8 b h3).imp_right fun ⟨i, _, hi⟩ => ⟨i, hi⟩

/-- The byte is the encoding of some instruction, and by `decodeInvertsEncode` it decodes to no other. -/
theorem encode_of_decodeInstrByte (h : decodeInstrByte b = .instr i) : encode i = .panel (busWord false b) := by
  obtain hill | ⟨j, hj⟩ := instrByte_unnamed_or_encoded b
  · cases hill.symm.trans h
  · have hdec := decodeInvertsEncode j
    rw [hj, decode, decodePanel_instrByte, h] at hdec
    cases hdec
    exact hj

theorem encode_of_decodePanel {w : BusWord} (h : decodePanel w = .instr i) : encode i = .panel w := by
  rw [← busWord_fields w] at h ⊢
  cases hrs : w.getLsbD 8 with
  | true =>
    rw [hrs, decodePanel_data] at h
    cases h
    rfl
  | false =>
    rw [hrs, decodePanel_instrByte] at h
    exact encode_of_decodeInstrByte h

/-- Settles O3, for each language. -/
theorem encodeInvertsDecode : Obligations.EncodeInvertsDecode := by
  intro c i h
  cases c with
  | host w => exact encode_of_decodeHost h
  | panel w => exact encode_of_decodePanel h

/-! ## The words of the pseudo-instructions (R84, R114) -/

/-- R84: the word that one element of a string issues. -/
theorem encode_writeElement (e : Byte) :
    encode (writeElement e) = .host (if e = 0x0A#8 then 0x702#12 else 0x3#4 ++ e) := by
  unfold writeElement newline
  split <;> rfl

/-- Settles O6, element by element. -/
theorem pseudoInstructionWords : Obligations.PseudoInstructionWords := by
  refine ⟨fun bs => ?_, rfl⟩
  simp only [Pseudo.expand, List.map_map, Function.comp_def, encode_writeElement]

/-! ## Words written out (R47, R52) -/

/-- Settles O1, word by word. -/
theorem handwrittenWordsDecode : Obligations.HandwrittenWordsDecode :=
  ⟨rfl, rfl, rfl, rfl, rfl, rfl, rfl, rfl, rfl, rfl, rfl, rfl⟩

/-! ## Illegal host words (R49) -/

theorem op_toNat (w : HostWord) : (w.extractLsb' 8 4).toNat = w.toNat / 256 := by
  rw [BitVec.extractLsb'_toNat, Nat.shiftRight_eq_div_pow]
  omega

theorem arg_toNat (w : HostWord) : (w.extractLsb' 0 8).toNat = w.toNat % 256 := by
  rw [BitVec.extractLsb'_toNat, Nat.shiftRight_zero]

theorem argNone_illegal : (∃ r, argNone arg i = .illegal r) ↔ arg.toNat ≠ 0 := by
  rw [← BitVec.toNat_zero (w := 8), ne_eq, BitVec.toNat_inj, argNone]
  split <;> simp [*]

/-- ARG[7:1] is nonzero in the arguments from 2 up. -/
theorem reserved_iff : ∀ arg : Byte, arg.extractLsb' 1 7 = 0#7 ↔ ¬2 ≤ arg.toNat := by decide

theorem argBool_illegal : (∃ r, argBool arg mk = .illegal r) ↔ 2 ≤ arg.toNat := by
  simp only [argBool, reserved_iff, ite_not]
  split
  · exact ⟨fun _ => ‹_›, fun _ => ⟨_, rfl⟩⟩
  · exact ⟨nofun, fun h => absurd h ‹_›⟩

/-- R49: the illegal words of each row of the opcode map are those of its clause. -/
theorem decodeHost_illegal : (∃ r, decodeHost w = .illegal r) ↔
    (w.toNat / 256 = 0x0 ∨ w.toNat / 256 = 0xE ∨ w.toNat / 256 = 0xF) ∨
    ((w.toNat / 256 = 0x1 ∨ w.toNat / 256 = 0x4 ∨ w.toNat / 256 = 0x5) ∧ w.toNat % 256 ≠ 0) ∨
    ((w.toNat / 256 = 0x6 ∨ (0x8 ≤ w.toNat / 256 ∧ w.toNat / 256 ≤ 0xD)) ∧ 2 ≤ w.toNat % 256) := by
  rw [← op_toNat, ← arg_toNat]
  unfold decodeHost
  dsimp only
  split
  case h_1 | h_4 | h_5 =>
    rw [argNone_illegal]
    omega
  case h_2 | h_3 | h_7 =>
    simp only [reduceCtorEq, exists_false, false_iff]
    omega
  case h_6 | h_8 | h_9 | h_10 | h_11 | h_12 | h_13 =>
    rw [argBool_illegal]
    omega
  case h_14 =>
    simp only [imp_false, Decoded.illegal.injEq, exists_eq', true_iff] at *
    omega

/-- Settles O4: the words by the opcode map, the step by the dispatch of an accepted word (R59). -/
theorem illegalWordsOnlyRaise : Obligations.IllegalWordsOnlyRaise := by
  intro w
  refine ⟨decodeHost_illegal, ?_⟩
  rintro s ⟨r, hd⟩ ha rfl
  rw [step_of_accepts ha, dispatchWord, hd]
  rfl

/-! ## Unnamed bytes (R54) -/

/-- Settles O47: at the end of HIGH the panel latches the word on the lines (R62, R63). -/
theorem unnamedByteLatches : Obligations.UnnamedByteLatches := by
  intro s r hr hp hc hd
  have hlatch : latchLines s = .next (s.latch s.busWord Panel.unstated) := by rw [latchLines, hd]
  have hadv : advance s = .next (s.latch s.busWord Panel.unstated).lowerEnable := by
    simp only [advance, hp, hlatch, mapNext_next]
  rw [step_of_end hr (by simp [hp]) hc, hadv, mapNext_next]
  simp only [State.latch, State.busWord, busWord_rs, busWord_data]
  rfl

end Sys2Proof.Proofs
end

section
/-! CERTIFICATE. What a clock edge does (R58), how each phase of a transfer ends (R62), and the latch event at the end of
HIGH (R63), which carries the word on the lines. -/

namespace Sys2Proof.Proofs

open Sys2Proof.Machine Sys2Proof.Laws

variable {s t : State} {i : Instr} {f : Nat → Panel → Panel}

/-! ## The latch event (R63) -/

/-- A panel instruction latches the word that encodes it, with an effect that does not depend on the state. -/
theorem panelExec_latchesWord (hi : i.isHost = false) :
    ∃ w f, encode i = .panel w ∧ ∀ s, exec i s = .next (s.latch w f) := by
  cases i with
  | clearDisplay | returnHome | writeLeft | shiftRight | writeRight | shiftLeft | displayControl _ _ _
  | functionSet _ _ _ | setCgram _ | setDdram _ | dataWrite _ => exact ⟨_, _, rfl, fun _ => rfl⟩
  | _ => simp [Instr.isHost] at hi

/-- R51, R63: whatever the state, the panel latches the word on the lines, with the effect of that word. -/
theorem latchLines_latchesWord (w : BusWord) :
    ∃ f, ∀ s : State, s.busWord = w → latchLines s = .next (s.latch w f) := by
  cases hd : decodePanel w with
  | instr i =>
    obtain ⟨w', f, hw, hx⟩ := panelExec_latchesWord (decodePanel_isPanel hd)
    cases hw.symm.trans (encode_of_decodePanel hd)
    exact ⟨f, fun s hs => by rw [latchLines, hs, hd]; exact hx s⟩
  | illegal r => exact ⟨Panel.unstated, fun s hs => by rw [latchLines, hs, hd]⟩

/-- The event of the word on the lines has the levels of RS and D. -/
theorem latch_lines_trace (s : State) (f : Nat → Panel → Panel) :
    (s.latch s.busWord f).trace = s.trace ++ [{ edge := s.edge, rs := s.rsQ, byte := s.dQ }] := by
  rw [latch_trace, State.busWord, busWord_rs, busWord_data]

/-- Only panel instructions are encoded as bus words (R51). -/
theorem isHost_eq_false_of_encode {w : BusWord} (h : encode i = .panel w) : i.isHost = false := by
  cases i with
  | clearDisplay | returnHome | writeLeft | shiftRight | writeRight | shiftLeft | displayControl _ _ _
  | functionSet _ _ _ | setCgram _ | setDdram _ | dataWrite _ => rfl
  | _ => cases h

/-- Settles O40: a panel instruction is the latch of its word. -/
theorem panelInstructionsRecordEvent : Obligations.PanelInstructionsRecordEvent := by
  intro i w s h
  obtain ⟨w', f, hw, hx⟩ := panelExec_latchesWord (isHost_eq_false_of_encode h)
  cases hw.symm.trans h
  exact ⟨(s.latch w f).panel, hx s⟩

/-! ## The end of a phase (R62) -/

/-- At the end of HIGH the panel latches the word on the lines, and the enable falls (R62, R63). -/
theorem step_endHigh (hr : s.ports.rst = false) (hp : s.phase = .high) (hc : s.cnt ≤ 1) :
    ∃ f, step s = .next (s.latch s.busWord f).lowerEnable.afterEdge := by
  obtain ⟨f, hf⟩ := latchLines_latchesWord s.busWord
  refine ⟨f, ?_⟩
  rw [step_of_end hr (by simp [hp]) hc]
  simp only [advance, hp, hf s rfl, mapNext_next]

/-- Settles O12, phase by phase: where the counter has run out a step is `Advance`, followed by the ports of the next
edge. -/
theorem phaseEnds : Obligations.PhaseEnds := by
  intro s hr hc
  have hend (hp : s.phase ≠ .idle) := step_of_end hr hp hc
  refine ⟨fun hp => ?_, fun hp => ?_, fun hp hx => ?_, fun hp hx => ?_, fun hp => ?_⟩
  · rw [hend (by simp [hp])]
    simp only [advance, hp, mapNext_next, State.raiseEnable]
  · obtain ⟨f, hstep⟩ := step_endHigh hr hp hc
    refine ⟨(s.latch s.busWord f).panel, ?_⟩
    rw [hstep, ← latch_lines_trace s f]
    rfl
  · rw [hend (by simp [hp])]
    simp only [advance, hp, mapNext_next, State.endPost, hx, if_true]
  · rw [hend (by simp [hp])]
    simp [advance, hp, State.endPost, hx]
  · rw [hend (by simp [hp])]
    simp only [advance, hp, mapNext_next, State.endLong]

/-- Settles O13: of the cases of an edge only the end of HIGH writes the trace. -/
theorem latchEventsAtEnableFall : Obligations.LatchEventsAtEnableFall := by
  intro s t h
  refine ⟨fun ⟨hr, hp, hc⟩ => ?_, fun hn => ?_⟩
  · obtain ⟨f, hstep⟩ := step_endHigh hr hp hc
    cases hstep.symm.trans h
    exact latch_lines_trace s f
  · obtain ⟨u, hu, rfl⟩ := step_cases h
    rw [afterEdge_trace]
    cases hu with
    | high hr hp hc _ _ => exact absurd ⟨hr, hp, hc⟩ hn
    | request ha hd hx => exact (requestTo_panel (requestTo_of_exec (decodeHost_isHost hd) hx)).2
    | post _ _ _ => exact endPost_trace s
    | reset _ | quiet _ _ _ | illegal _ _ | count _ _ _ | setup _ _ _ | long _ _ _ => rfl

/-- Settles O10: the bus word on the lines decodes to the instruction that `Advance` executes at the end of HIGH. -/
theorem latchEdgeExecutes : Obligations.LatchEdgeExecutes := by
  intro s i hr hp hc hd
  rw [step_of_end hr (by simp [hp]) hc]
  simp only [advance, hp, latchLines, hd]
  cases exec i s <;> rfl

/-! ## The edge (R58) -/

/-- R58: an edge with no transfer and no request. -/
theorem step_quiet (hr : s.ports.rst = false) (hp : s.phase = .idle) (hv : s.ports.reqValid = false) :
    step s = .next s.afterEdge := by
  simp [step, clockEdge, hr, hp, hv]

/-- Settles O8, with the rule of each of the five cases. -/
theorem clockStep : Obligations.ClockStep := fun _ =>
  ⟨step_of_reset, fun hr hp hv => step_of_accepts ⟨hr, hp, hv⟩, step_quiet, step_of_count, step_of_end⟩

/-- A word that is accepted has an outcome, legal or not (R59). -/
theorem dispatchWord_answers (w : HostWord) (s : State) : ∃ u, dispatchWord w s = .next u := by
  obtain ⟨r, -, h⟩ | ⟨i, -, hi, h⟩ := dispatch_cases w s
  · exact ⟨_, h⟩
  · rw [h]
    obtain ⟨-, -, -, h⟩ | ⟨-, -, -, h⟩ | ⟨-, -, h⟩ | ⟨-, -, h⟩ | ⟨-, -, h⟩ | ⟨-, -, u, -, h⟩ := hostExec_cases i hi s <;>
      exact ⟨_, h⟩

/-- Every phase has an end (R62). -/
theorem advance_answers (s : State) : ∃ u, advance s = .next u := by
  cases hp : s.phase with
  | high =>
    obtain ⟨w, f, hl⟩ := latchLines_latch s
    simp only [advance, hp, hl, mapNext_next]
    exact ⟨_, rfl⟩
  | idle | setup | post | long =>
    simp only [advance, hp]
    exact ⟨_, rfl⟩

/-- R67, R100: no edge is left without a next state. -/
theorem step_answers (s : State) : ∃ t, step s = .next t := by
  cases hr : s.ports.rst with
  | true => exact ⟨_, step_of_reset hr⟩
  | false =>
    by_cases hp : s.phase = .idle
    · cases hv : s.ports.reqValid with
      | true =>
        obtain ⟨u, hu⟩ := dispatchWord_answers s.ports.reqWord s
        exact ⟨u.afterEdge, by rw [step_of_accepts ⟨hr, hp, hv⟩, hu, mapNext_next]⟩
      | false => exact ⟨_, step_quiet hr hp hv⟩
    · by_cases hc : 1 < s.cnt
      · exact ⟨_, step_of_count hr hp hc⟩
      · obtain ⟨u, hu⟩ := advance_answers s
        exact ⟨u.afterEdge, by rw [step_of_end hr hp (Nat.not_lt.1 hc), hu, mapNext_next]⟩

/-- Settles O7: the next state exists, and no case of an edge writes the parameters, the inputs or the index. -/
theorem everyStepAnswers : Obligations.EveryStepAnswers := by
  intro s
  obtain ⟨t, h⟩ := step_answers s
  obtain ⟨u, hu, rfl⟩ := step_cases h
  obtain ⟨hparams, -, hsched, hedge⟩ := edgeTo_sameInputs hu
  refine ⟨_, h, hparams, ?_, ?_, ?_⟩
  · rw [afterEdge_edge, hedge]
  · rw [afterEdge_ports, hsched]
  · rw [afterEdge_sched, hsched]

end Sys2Proof.Proofs
end

section
/-! CERTIFICATE. The requests, each as the whole next state: INIT (R68, R69), CMD and DATA (R70, R71), the commands of
R74 to R77, the flag requests of R78 to R83, and the rejection of a request before READY (R59). -/

namespace Sys2Proof.Proofs

open Sys2Proof.Machine Sys2Proof.Laws

variable {s : State}

/-! ## INIT (R68, R69) -/

/-- Settles O16: the lifecycle, and then the assignment on the ports. -/
theorem initOutcomes : Obligations.InitOutcomes := by
  intro s
  refine ⟨fun hl hv => ?_, fun hl hv => ?_, fun hl => ?_⟩
  · simp [exec, execInit, hl, hv]
  · simp [exec, execInit, hl, hv, State.raise]
  · simp [exec, execInit, hl, State.raise]

/-- R16: the wires of each role carry the low bits of its identifier. -/
theorem pinOf_onWires (w : Nat) (p : PinAssignment) (r : Role) : pinOf (onWires w p) r = pinOf p r % 2 ^ w := by
  cases r <;> rfl

/-- R68: no two roles share a pin. -/
theorem pinOf_injective_iff {p : PinAssignment} :
    Function.Injective (pinOf p) ↔ ∀ r q : Role, r ≠ q → pinOf p r ≠ pinOf p q :=
  ⟨fun h _ _ => h.ne, fun h r q he => by_contra fun hne => h r q hne he⟩

/-- Settles O17: what the wires carry is below `2 ^ PIN_W`, so that only the sharing is left to test. -/
theorem pinsValidMeaning : Obligations.PinsValidMeaning := by
  refine ⟨fun n p => ?_, pinOf_onWires, fun w p => ?_⟩
  · rw [pinsValid_iff, pinOf_injective_iff]
  · have hrange : ∀ r, pinOf (onWires w p) r < 2 ^ w := fun r => by
      rw [pinOf_onWires]
      exact Nat.mod_lt _ (Nat.two_pow_pos w)
    rw [pinsValid_iff, pinOf_injective_iff]
    exact and_iff_right hrange

/-! ## Requests in READY (R70 to R77) -/

/-- R66: the long instruction bytes. -/
theorem isLongCmd_iff : ∀ b : Byte, isLongCmd b = true ↔ b = 1#8 ∨ b = 2#8 ∨ b = 3#8 := by decide

theorem isLongCmd_eq (b : Byte) : isLongCmd b = (b.toNat == 1 || b.toNat == 2 || b.toNat == 3) := by
  rw [Bool.eq_iff_iff, isLongCmd_iff]
  simp [← BitVec.toNat_inj, or_assoc]

/-- Settles O18: in READY both run, and start their transfer. -/
theorem cmdAndDataStartTransfer : Obligations.CmdAndDataStartTransfer := by
  intro s b hl
  refine ⟨?_, ?_⟩
  · simp only [exec, execCmd, requireReady_ready hl, State.startXfer, isLongCmd_eq]
  · simp only [exec, execData, requireReady_ready hl, State.startXfer]

/-- R77: SELECT_LINE by its line. -/
theorem exec_selectLine (hl : s.life = .ready) (n : Byte) : exec (.selectLine n) s = .next (
    if n = 1#8 then s.startXfer false 0x80#8 false
    else if n = 2#8 then s.startXfer false 0xC0#8 false else s) := by
  simp only [exec, execSelectLine, requireReady_ready hl]
  obtain ⟨rfl, hb⟩ | ⟨rfl, hb⟩ | ⟨h1, h2, hb⟩ := lineBase_cases n
  · rfl
  · rfl
  · rw [hb, if_neg h1, if_neg h2]

/-- Settles O19: in READY each runs, SELECT_LINE with the base of its line. -/
theorem plainCommandsStartTransfer : Obligations.PlainCommandsStartTransfer := by
  intro s v n hl
  refine ⟨?_, ?_, ?_, ?_⟩
  · simp only [exec, execClear, requireReady_ready hl, State.startXfer]
  · simp only [exec, execHome, requireReady_ready hl, State.startXfer]
  · simp only [exec, execSetDir, requireReady_ready hl, State.startXfer, directionByte]
  · have h1 : n.toNat = 1 ↔ n = 1#8 := by rw [← BitVec.toNat_inj]; rfl
    have h2 : n.toNat = 2 ↔ n = 2#8 := by rw [← BitVec.toNat_inj]; rfl
    simp only [exec_selectLine hl, h1, h2]
    by_cases hn : n = 1#8
    · simp only [hn, State.startXfer, true_or, if_true]
    · simp only [hn, State.startXfer, false_or, if_false]

/-! ## The flag requests (R78 to R83) -/

/-- R72, R73: a request that leaves `c` in `CTRL` sends the byte of `c`. -/
theorem requireReady_sendCtrl (hl : s.life = .ready) {mask : Byte} {v : Bool} {c : CtrlReg}
    (h : setField s.ctrl.byte mask v = c.byte) : requireReady (fun s => s.sendCtrl mask v) s =
      .next (({ s with ctrl := c } : State).startXfer false c.byte false) := by
  simp only [requireReady_ready hl, State.sendCtrl, State.ctrlQ, h, State.writeCtrl, ctrl_ofByte_byte]

/-- R72, R73: a request that leaves `m` in `MODE` sends the byte of `m`. -/
theorem requireReady_sendMode (hl : s.life = .ready) {mask : Byte} {v : Bool} {m : ModeReg}
    (h : setField s.mode.byte mask v = m.byte) : requireReady (fun s => s.sendMode mask v) s =
      .next (({ s with mode := m } : State).startXfer false m.byte false) := by
  simp only [requireReady_ready hl, State.sendMode, State.modeQ, h, State.writeMode, mode_ofByte_byte]

/-- Settles O20: each runs in READY, under the mask of its bit. -/
theorem controlFlagRequests : Obligations.ControlFlagRequests := fun s v hl =>
  ⟨⟨_, requireReady_sendCtrl hl (setField_display s.ctrl v), rfl, rfl⟩,
    ⟨_, requireReady_sendCtrl hl (setField_cursor s.ctrl v), rfl, rfl⟩,
    ⟨_, requireReady_sendCtrl hl (setField_blink s.ctrl v), rfl, rfl⟩⟩

/-- Settles O21: each runs in READY, under the mask of its bit. -/
theorem modeFlagRequests : Obligations.ModeFlagRequests := fun s v hl =>
  ⟨⟨_, requireReady_sendMode hl (setField_eight s.mode v), rfl, rfl⟩,
    ⟨_, requireReady_sendMode hl (setField_twoLines s.mode v), rfl, rfl⟩,
    ⟨_, requireReady_sendMode hl (setField_bigFont s.mode v), rfl, rfl⟩⟩

/-! ## Requests before READY (R59) -/

/-- Settles O22: of the outcomes of a request, the one that is neither INIT's nor in READY. -/
theorem notReadyOnlyRaises : Obligations.NotReadyOnlyRaises := by
  intro i s hi hinit hl
  obtain ⟨h, -⟩ | ⟨h, -⟩ | ⟨h, -⟩ | ⟨-, -, hx⟩ | ⟨-, h, -⟩ | ⟨-, h, -⟩ := hostExec_cases i hi s
  · exact absurd h hinit
  · exact absurd h hinit
  · exact absurd h hinit
  · exact hx
  · exact absurd h hl
  · exact absurd h hl

end Sys2Proof.Proofs
end

section
/-! CERTIFICATE. The timeline of a transfer (R64, R65) and the busy cycles of a request (R122): the block after each
number of edges from the first cycle of SETUP, put together from the runs through the phases. -/

namespace Sys2Proof.Proofs

open Sys2Proof.Machine Sys2Proof.Laws

variable {s t u : State} {i : Instr} {f : Nat → Panel → Panel} {p : Params} {long : Bool} {j k : Nat}

/-! ## The timeline (R64, R65) -/

/-- The cycles of a transfer with the block's `xfer_long`, by R122. -/
def transferCycles (p : Params) (long : Bool) : Nat := normalCycles p + if long then p.nLong else 0

/-- The phase of a transfer `k` edges after its first cycle of SETUP (R62, R64). -/
def phaseAfter (p : Params) (long : Bool) (k : Nat) : Phase :=
  if k < p.nSu then .setup
  else if k < p.nSu + p.nPw then .high
  else if k < normalCycles p then .post
  else if k < transferCycles p long then .long
  else .idle

theorem phaseAfter_setup (h : k < p.nSu) : phaseAfter p long k = .setup := if_pos h

theorem phaseAfter_high (h : p.nSu ≤ k) (h' : k < p.nSu + p.nPw) : phaseAfter p long k = .high := by
  rw [phaseAfter, if_neg (Nat.not_lt.2 h), if_pos h']

theorem phaseAfter_post (h : p.nSu + p.nPw ≤ k) (h' : k < normalCycles p) : phaseAfter p long k = .post := by
  rw [phaseAfter, if_neg (by omega), if_neg (by omega), if_pos h']

theorem phaseAfter_end (h : normalCycles p ≤ k) :
    phaseAfter p long k = if k < transferCycles p long then .long else .idle := by
  have hle : p.nSu + p.nPw ≤ normalCycles p := Nat.le_add_right _ _
  rw [phaseAfter, if_neg (by omega), if_neg (by omega), if_neg (by omega)]

/-- What R64 says of the block `k` edges after the state `s`, the first cycle of SETUP. The latch event is at the last
edge of HIGH. -/
structure TransferAt (s : State) (k : Nat) (t : State) : Prop where
  phase : t.phase = phaseAfter s.params s.xferLong k
  enable : t.enQ = decide (t.phase = .high)
  rs : t.rsQ = if k < normalCycles s.params then s.rsQ else false
  data : t.dQ = s.dQ
  trace : t.trace = if k < s.params.nSu + s.params.nPw then s.trace else
    s.trace ++ [{ edge := s.edge + s.params.nSu + (s.params.nPw - 1), rs := s.rsQ, byte := s.dQ }]

/-- The state at the end of HIGH, the word on the lines latched with the effect `f`; its index is still that of `s`. -/
def afterPulse (f : Nat → Panel → Panel) (s : State) : State :=
  latchedAt (s.edge + s.params.nSu + (s.params.nPw - 1)) s.busWord f s

theorem afterPulse_trace (f : Nat → Panel → Panel) (s : State) : (afterPulse f s).trace =
    s.trace ++ [{ edge := s.edge + s.params.nSu + (s.params.nPw - 1), rs := s.rsQ, byte := s.dQ }] :=
  latch_lines_trace { s with edge := s.edge + s.params.nSu + (s.params.nPw - 1) } f

/-- The state at the end of POST; its index is still that of `s`. -/
def afterPost (f : Nat → Panel → Panel) (s : State) : State := ({ afterPulse f s with cnt := 1 } : State).endPost

theorem afterPost_noResetFor (h : s.noResetFor k) : (afterPost f s).noResetFor k := by
  have hinputs : (afterPost f s).inputs = s.inputs := by simp [State.inputs, afterPost, afterPulse, latchedAt]
  rw [State.noResetFor, hinputs]
  exact h

section

variable (hok : s.params.ok = true) (hp : s.phase = .setup) (hc : s.cnt = s.params.nSu) (hen : s.enQ = false)
  (hl : ∀ v : State, v.busWord = s.busWord → latchLines v = .next (v.latch s.busWord f))

include hp hc hen in
theorem transferAt_setup (hk : k < s.params.nSu) (hn : s.noResetFor k) :
    ∃ t, run k s = .next t ∧ TransferAt s k t := by
  have hle : s.params.nSu + s.params.nPw ≤ normalCycles s.params := Nat.le_add_right _ _
  refine ⟨_, run_countedDown (by simp [hp]) (hc ▸ hk) hn, ?_⟩
  exact
    { phase := hp.trans (phaseAfter_setup hk).symm
      enable := hen.trans (decide_eq_false (by simp [countedDown, passEdges, hp])).symm
      rs := (if_pos (by omega)).symm
      data := rfl
      trace := (if_pos (by omega)).symm }

include hok hp hc in
theorem transferAt_high (hj : j < s.params.nPw) (hn : s.noResetFor (s.params.nSu + j)) :
    ∃ t, run (s.params.nSu + j) s = .next t ∧ TransferAt s (s.params.nSu + j) t := by
  have hle : s.params.nSu + s.params.nPw ≤ normalCycles s.params := Nat.le_add_right _ _
  have hsu : 1 ≤ s.params.nSu := phaseLength_pos hok (ph := .setup) (by simp)
  have hsetup := run_setup hp hc hsu (noResetFor_mono hn)
  refine ⟨_, (run_add hsetup).trans (run_countedDown (by simp [passEdges]) hj (noResetFor_passEdges hn)), ?_⟩
  exact
    { phase := (phaseAfter_high (by omega) (by omega)).symm
      enable := rfl
      rs := (if_pos (by omega)).symm
      data := rfl
      trace := (if_pos (by omega)).symm }

include hok hp hc hl in
theorem transferAt_post (hj : j < s.params.nPost) (hn : s.noResetFor (s.params.nSu + s.params.nPw + j)) :
    ∃ t, run (s.params.nSu + s.params.nPw + j) s = .next t ∧ TransferAt s (s.params.nSu + s.params.nPw + j) t := by
  have hlt : s.params.nSu + s.params.nPw + j < normalCycles s.params := Nat.add_lt_add_left hj _
  have hpulse := run_pulse hok hp hc (noResetFor_mono hn) hl
  refine ⟨_, (run_add hpulse).trans (run_countedDown (by simp [passEdges, latchedAt]) hj (noResetFor_passEdges hn)), ?_⟩
  exact
    { phase := (phaseAfter_post (by omega) hlt).symm
      enable := rfl
      rs := (if_pos hlt).symm
      data := rfl
      trace := (afterPulse_trace f s).trans (if_neg (by omega)).symm }

include hok hp hc hl in
theorem run_toEndOfPost (hn : s.noResetFor (normalCycles s.params)) :
    run (normalCycles s.params) s = .next (passEdges (normalCycles s.params) (afterPost f s)) := by
  have hpost : 1 ≤ s.params.nPost := phaseLength_pos hok (ph := .post) (by simp)
  have hpulse := run_pulse hok hp hc (noResetFor_mono hn) hl
  rw [normalCycles, run_add hpulse, ← passEdges_passEdges (s.params.nSu + s.params.nPw), afterPost, ← endPost_passEdges]
  exact run_post (s := passEdges (s.params.nSu + s.params.nPw) (afterPulse f s)) rfl rfl hpost (noResetFor_passEdges hn)

/-- From the end of POST on the lines RS and EN are low, and nothing but the phase moves. -/
theorem transferAt_low (hk : normalCycles s.params ≤ k)
    (ht : t.phase = if k < transferCycles s.params s.xferLong then .long else .idle)
    (hen : t.enQ = false) (hrs : t.rsQ = false) (hd : t.dQ = s.dQ) (htr : t.trace = (afterPulse f s).trace) :
    TransferAt s k t where
  phase := ht.trans (phaseAfter_end hk).symm
  enable := by rw [hen, ht]; split <;> rfl
  rs := hrs.trans (if_neg (Nat.not_lt.2 hk)).symm
  data := hd
  trace := by
    have hle : s.params.nSu + s.params.nPw ≤ normalCycles s.params := Nat.le_add_right _ _
    rw [htr, afterPulse_trace, if_neg (by omega)]

include hok hp hc hl in
/-- LONG, with its first cycle at the end of POST. -/
theorem transferAt_long (hx : s.xferLong = true) (hj : j < s.params.nLong)
    (hn : s.noResetFor (normalCycles s.params + j)) :
    ∃ t, run (normalCycles s.params + j) s = .next t ∧ TransferAt s (normalCycles s.params + j) t := by
  have hpost := run_toEndOfPost hok hp hc hl (noResetFor_mono hn)
  have hphase : (afterPost f s).phase = .long := by rw [afterPost, endPost_phase]; exact if_pos hx
  have hcnt : (afterPost f s).cnt = s.params.nLong := by rw [afterPost, endPost_cnt]; exact if_pos hx
  have hbusy : (passEdges (normalCycles s.params) (afterPost f s)).phase ≠ .idle := by simp [passEdges, hphase]
  refine ⟨_, (run_add hpost).trans (run_countedDown hbusy (hj.trans_eq hcnt.symm)
    (noResetFor_passEdges (afterPost_noResetFor hn))), ?_⟩
  refine transferAt_low (f := f) (by omega) (hphase.trans (if_pos ?_).symm) (endPost_enQ _) (endPost_rsQ _)
    (endPost_dQ _) (endPost_trace _)
  simpa [transferCycles, hx] using hj

include hok hp hc hl in
/-- The end of a transfer, normal or long. -/
theorem transferAt_idle (hn : s.noResetFor (transferCycles s.params s.xferLong)) :
    ∃ t, run (transferCycles s.params s.xferLong) s = .next t ∧
      TransferAt s (transferCycles s.params s.xferLong) t := by
  cases hx : s.xferLong with
  | true =>
    rw [hx] at hn
    refine ⟨_, run_longTransfer hok hp hx hc hn hl, ?_⟩
    exact transferAt_low (f := f) (Nat.le_add_right _ _) (by rw [hx]; exact (if_neg (Nat.lt_irrefl _)).symm)
      rfl rfl rfl rfl
  | false =>
    rw [hx] at hn
    have hphase : (afterPost f s).phase = .idle := by
      rw [afterPost, endPost_phase]
      exact if_neg (ne_true_of_eq_false hx)
    refine ⟨_, run_toEndOfPost hok hp hc hl hn, ?_⟩
    exact transferAt_low (f := f) (Nat.le_add_right _ _) (by rw [hx]; exact hphase.trans (if_neg (Nat.lt_irrefl _)).symm)
      (endPost_enQ _) (endPost_rsQ _) (endPost_dQ _) (endPost_trace _)

end

/-- R64, R65: a transfer from its first cycle of SETUP to its end, phase by phase. -/
theorem run_transferAt (hok : s.params.ok = true) (hp : s.phase = .setup) (hc : s.cnt = s.params.nSu)
    (hen : s.enQ = false) (hk : k ≤ transferCycles s.params s.xferLong) (hn : s.noResetFor k) :
    ∃ t, run k s = .next t ∧ TransferAt s k t := by
  obtain ⟨f, hl⟩ := latchLines_latchesWord s.busWord
  by_cases hsu : k < s.params.nSu
  · exact transferAt_setup hp hc hen hsu hn
  by_cases hpw : k < s.params.nSu + s.params.nPw
  · obtain ⟨j, rfl⟩ := Nat.exists_eq_add_of_le (Nat.not_lt.1 hsu)
    exact transferAt_high hok hp hc (Nat.add_lt_add_iff_left.1 hpw) hn
  by_cases hpost : k < normalCycles s.params
  · obtain ⟨j, rfl⟩ := Nat.exists_eq_add_of_le (Nat.not_lt.1 hpw)
    exact transferAt_post hok hp hc hl (Nat.add_lt_add_iff_left.1 hpost) hn
  obtain hk | rfl := Nat.lt_or_eq_of_le hk
  · cases hx : s.xferLong with
    | true =>
      obtain ⟨j, rfl⟩ := Nat.exists_eq_add_of_le (Nat.not_lt.1 hpost)
      exact transferAt_long hok hp hc hl hx (by simpa [transferCycles, hx] using hk) hn
    | false => exact absurd hk (by simpa [transferCycles, hx] using hpost)
  · exact transferAt_idle hok hp hc hl hn

/-! ## From the accept edge (R17, R61) -/

/-- A request of an idle block that enters SETUP is the start of a transfer (R61). -/
theorem started_of_setup (hp : s.phase = .idle) (hu : RequestTo i s u) (h : u.phase = .setup) : Started s u := by
  cases hu with
  | transfer _ _ hs => exact hs
  | initReady _ _ _ | initFailed _ _ _ | initAgain _ _ | notReady _ _ | noLine _ _ => cases hp.symm.trans h

/-- R64: the timeline from the accept edge, which loads the lines. -/
theorem run_transferAt_of_accepts (hok : s.params.ok = true) (ha : s.accepts) (hd : decodeHost s.ports.reqWord = .instr i)
    (hx : exec i s = .next u) (hp : u.phase = .setup) (hk : k ≤ transferCycles s.params u.xferLong)
    (hn : s.noResetFor (k + 1)) : ∃ t, run (k + 1) s = .next t ∧ TransferAt u.afterEdge k t := by
  have hstep : step s = .next u.afterEdge := by rw [acceptedRequestExecutes s i ha hd, hx, mapNext_next]
  obtain ⟨c, m, rs, b, long, -, rfl⟩ := started_of_setup ha.2.1 (requestTo_of_exec (decodeHost_isHost hd) hx) hp
  rw [run_succ hstep]
  exact run_transferAt hok rfl rfl rfl hk (noReset_tail hn hstep)

/-- R6: the minimum times of the periods. -/
theorem minimums_of_paramsOk (h : p.ok = true) :
    2 * p.clkHz ≤ p.nSu * 1000000 ∧ 2 * p.clkHz ≤ p.nPw * 1000000 ∧ 100 * p.clkHz ≤ p.nPost * 1000000 ∧
      2 * p.clkHz ≤ p.nLong * 1000 := by
  simp only [Params.ok, Bool.and_eq_true, decide_eq_true_eq] at h
  omega

/-- Settles O34: the timeline of `TransferAt`, read range by range. -/
theorem transferTimeline : Obligations.TransferTimeline := by
  intro s u i hok ha hd hx hp
  refine ⟨minimums_of_paramsOk hok, fun k hk hn => ?_⟩
  have hu := requestTo_of_exec (decodeHost_isHost hd) hx
  obtain ⟨hparams, -, -, hedge⟩ := requestTo_sameInputs hu
  obtain ⟨t, hrun, ht⟩ := run_transferAt_of_accepts hok ha hd hx hp hk hn
  obtain ⟨hphase, hen, hrs, hdata, htrace⟩ := ht
  have hle : s.params.nSu + s.params.nPw ≤ normalCycles s.params := Nat.le_add_right _ _
  have hpw : 1 ≤ s.params.nPw := phaseLength_pos hok (ph := .high) (by simp)
  have hlatch : s.edge + 1 + s.params.nSu + (s.params.nPw - 1) = s.edge + s.params.nSu + s.params.nPw := by omega
  simp only [afterEdge_params, afterEdge_xferLong, afterEdge_rsQ, afterEdge_dQ, afterEdge_trace, afterEdge_edge, hparams,
    hedge, (requestTo_panel hu).2, hlatch] at hphase hrs hdata htrace
  refine ⟨t, hrun, hdata, fun h => ?_, fun h h' => ?_, fun h h' => ?_, fun h => ?_, fun h => ?_⟩
  · rw [phaseAfter_setup h] at hphase
    rw [hphase] at hen
    exact ⟨hphase, hen, by rw [hrs, if_pos (by omega)], by rw [htrace, if_pos (by omega)]⟩
  · rw [phaseAfter_high h h'] at hphase
    rw [hphase] at hen
    exact ⟨hphase, hen, by rw [hrs, if_pos (by omega)], by rw [htrace, if_pos h']⟩
  · rw [phaseAfter_post h h'] at hphase
    rw [hphase] at hen
    exact ⟨hphase, hen, by rw [hrs, if_pos h']⟩
  · rw [phaseAfter_end h] at hphase
    refine ⟨hphase, ?_, by rw [hrs, if_neg (Nat.not_lt.2 h)]⟩
    rw [hen, hphase]
    split <;> rfl
  · rw [htrace, if_neg (Nat.not_lt.2 h)]

/-! ## The busy cycles (R60, R122) -/

/-- Within a transfer's cycles the phase is IDLE at their end only. -/
theorem phaseAfter_eq_idle (hk : k ≤ transferCycles p long) :
    phaseAfter p long k = .idle ↔ k = transferCycles p long := by
  have hle : normalCycles p ≤ transferCycles p long := Nat.le_add_right _ _
  obtain hlt | rfl := Nat.lt_or_eq_of_le hk
  · simp only [phaseAfter, if_pos hlt, hlt.ne, iff_false]
    split_ifs <;> simp
  · simp [phaseAfter_end hle]

/-- R59: a request that starts no transfer leaves the block idle. -/
theorem requestTo_idle_or_setup (hp : s.phase = .idle) (hu : RequestTo i s u) : u.phase = .idle ∨ u.phase = .setup := by
  cases hu with
  | transfer _ _ hs => obtain ⟨c, m, rs, b, long, -, rfl⟩ := hs; exact .inr rfl
  | initReady _ _ _ | initFailed _ _ _ | initAgain _ _ | notReady _ _ | noLine _ _ => exact .inl hp

/-- R122, R66: in READY the table has the cycles of the transfer that a request starts, and none if it starts none. -/
theorem busyCycles_ready (hl : s.life = .ready) (hp : s.phase = .idle) (hd : decodeHost s.ports.reqWord = .instr i)
    (hx : exec i s = .next u) :
    busyCycles s = if u.phase = .setup then transferCycles s.params u.xferLong else 0 := by
  have hi := decodeHost_isHost hd
  simp only [busyCycles, hl, hd, ne_eq, not_true_eq_false, if_false]
  cases i with
  | init =>
    simp only [exec, execInit, hl, ne_eq, reduceCtorEq, not_false_eq_true, if_true] at hx
    cases hx
    simp [hp]
  | cmd b =>
    simp only [exec, execCmd, requireReady_ready hl] at hx
    cases hx
    by_cases hb : b = 1#8 ∨ b = 2#8 ∨ b = 3#8
    · simp [transferCycles, isLongCmd_iff, hb]
    · simp [transferCycles, isLongCmd_iff, hb]
  | clear | home =>
    simp only [exec, execClear, execHome, requireReady_ready hl] at hx
    cases hx
    rfl
  | selectLine n =>
    rw [exec_selectLine hl] at hx
    cases hx
    by_cases h1 : n = 1#8
    · simp [transferCycles, h1]
    · by_cases h2 : n = 2#8
      · simp [transferCycles, h2]
      · simp [h1, h2, hp]
  | data _ | setDir _ | setDisplay _ | setCursor _ | setBlink _ | setBitMode _ | setLines _ | setFont _ =>
    simp only [exec, execData, execSetDir, execSetDisplay, execSetCursor, execSetBlink, execSetBitMode, execSetLines,
      execSetFont, requireReady_ready hl] at hx
    cases hx
    rfl
  | _ => simp [Instr.isHost] at hi

/-- R60: an accepted word leaves the block idle, with no busy cycle, or starts a transfer, which lasts its busy
cycles. -/
theorem dispatch_busyCycles (ha : s.accepts) (h : dispatchWord s.ports.reqWord s = .next u) :
    (u.phase = .idle ∧ busyCycles s = 0) ∨
    ∃ i, decodeHost s.ports.reqWord = .instr i ∧ exec i s = .next u ∧ u.phase = .setup ∧
      busyCycles s = transferCycles s.params u.xferLong := by
  obtain ⟨-, hp, -⟩ := ha
  obtain ⟨r, hd, hx⟩ | ⟨i, hd, hi, hx⟩ := dispatch_cases s.ports.reqWord s
  · cases hx.symm.trans h
    exact .inl ⟨hp, by simp [busyCycles, hd]⟩
  · rw [hx] at h
    have hu := requestTo_of_exec hi h
    by_cases hl : s.life = .ready
    · have hbusy := busyCycles_ready hl hp hd h
      obtain hidle | hsetup := requestTo_idle_or_setup hp hu
      · exact .inl ⟨hidle, by simpa [hidle] using hbusy⟩
      · exact .inr ⟨i, hd, h, hsetup, by simpa [hsetup] using hbusy⟩
    · have hkept : u.phase = s.phase := by_contra fun hne => hl (requestTo_phase hu hne).2
      exact .inl ⟨hkept.trans hp, by simp [busyCycles, hl]⟩

/-- Settles O35: without a transfer the block is ready after the accept edge, and with one after the last edge of its
timeline. -/
theorem busyCyclesOfRequests : Obligations.BusyCyclesOfRequests := by
  intro s k hok ha hk hn
  obtain ⟨u, hu⟩ := dispatchWord_answers s.ports.reqWord s
  obtain ⟨hidle, hbusy⟩ | ⟨i, hd, hx, hsetup, hbusy⟩ := dispatch_busyCycles ha hu
  · obtain rfl : k = 0 := by omega
    refine ⟨u.afterEdge, ?_, by simp [State.reqReady, hidle, hbusy]⟩
    rw [run_one, step_of_accepts ha, hu, mapNext_next]
  · rw [hbusy] at hk ⊢
    obtain ⟨t, hrun, ht⟩ := run_transferAt_of_accepts hok ha hd hx hsetup hk hn
    have hparams := (requestTo_sameInputs (requestTo_of_exec (decodeHost_isHost hd) hx)).1
    have hphase : t.phase = phaseAfter s.params u.xferLong k := hparams ▸ ht.phase
    refine ⟨t, hrun, ?_⟩
    rw [State.reqReady, decide_eq_true_iff, hphase, phaseAfter_eq_idle hk]

end Sys2Proof.Proofs
end

section
/-! CERTIFICATE. The flag update of R72 bit by bit: what it does under any mask, and which bits a one-hot mask
covers. -/

namespace Sys2Proof.Proofs

open Sys2Proof.Machine

variable {k i : Nat}

/-- The mask of R72 is one-hot: it has bit `k` and no other. -/
theorem oneHotMask_getLsbD (hk : k < 8) : (1#8 <<< k).getLsbD i = decide (i = k) := by
  rw [← BitVec.twoPow_eq, BitVec.getLsbD_twoPow]
  simp [hk, eq_comm]

/-- R72, for any mask: the bits under the mask become the value, and the others are kept. -/
theorem setField_getLsbD (r m : Byte) (v : Bool) (hi : i < 8) :
    (setField r m v).getLsbD i = if m.getLsbD i then v else r.getLsbD i := by
  cases v with
  | true =>
    rw [setField, if_pos rfl, BitVec.getLsbD_or]
    cases m.getLsbD i <;> simp
  | false =>
    rw [setField, if_neg Bool.false_ne_true, BitVec.getLsbD_and, BitVec.getLsbD_not, decide_eq_true hi]
    cases m.getLsbD i <;> simp

/-- Settles O23: the update acts under its mask only, and the one-hot mask covers bit `k` alone. -/
theorem setFieldTouchesOneBit : Obligations.SetFieldTouchesOneBit := by
  intro r k i v hk hi
  rw [setField_getLsbD r _ v hi, oneHotMask_getLsbD hk]
  simp only [decide_eq_true_eq]

end Sys2Proof.Proofs
end

section
/-! CERTIFICATE. What the panel makes of a word that it latches under the premise of R113 and R120: the stated effects
on a known panel (R85 to R95), the function set (R92), and the words without a stated effect (R89, R90, U7, U10). -/

namespace Sys2Proof.Proofs

open Sys2Proof.Machine Sys2Proof.Laws

variable {s : State} {r : PanelRegs}

/-! ## A latch event under the premise (R113, R120) -/

theorem latch_panel_of_premise (hp : s.panelPremise = true) (w : BusWord) (f : Nat → Panel → Panel) :
    (s.latch w f).panel = s.panel.latched (f s.free) := by
  rw [latch_panel, if_pos hp]

/-- A panel that is neither in 4-bit mode nor lost takes the effect of the word. -/
theorem latch_panel_effect (hp : s.panelPremise = true) (hs : ¬Stuck s.panel) (w : BusWord) (f : Nat → Panel → Panel) :
    (s.latch w f).panel = f s.free s.panel := by
  rw [latch_panel_of_premise hp, latched_effect hs]

theorem latch_panel_known (hk : s.panel = .known r) (hp : s.panelPremise = true) (w : BusWord)
    (f : Nat → Panel → Panel) :
    (s.latch w f).panel = f s.free (.known r) := by
  rw [latch_panel_of_premise hp, hk]
  rfl

theorem not_stuck {p : Panel} (hl : p ≠ .lost) (h4 : ∀ l f, p ≠ .fourBit l f) : ¬Stuck p := by
  rintro (h | ⟨l, f, h⟩)
  · exact hl h
  · exact h4 l f h

/-! ## The stated effects on a known panel (R85 to R88, R91, R93, R94) -/

/-- Settles O41: each of the words is a latch event, and a known panel takes its effect. -/
theorem knownPanelEffects : Obligations.KnownPanelEffects := by
  intro s r d c b a x hk hp
  have hpanel := latch_panel_known hk hp
  exact ⟨⟨_, rfl, hpanel _ _⟩, ⟨_, rfl, hpanel _ _⟩, ⟨_, rfl, hpanel _ _⟩, ⟨_, rfl, hpanel _ _⟩, ⟨_, rfl, hpanel _ _⟩,
    ⟨_, rfl, hpanel _ _⟩, ⟨_, rfl, hpanel _ _⟩⟩

/-! ## DATA_WRITE on a known panel (R95) -/

theorem onDataWrite_ddram {a : BitVec 7} (ha : r.addr = .ddram a) (n : Nat) (b : Byte) :
    Panel.onDataWrite n b (.known r) =
      if r.hasDdram a then
        .known { r with ddram := Memory.write r.ddram a.toNat b, addr := .ddram (Config.advanceDdram r.dir a) }
      else anyPanel n := by
  simp only [Panel.onDataWrite, ha]

theorem onDataWrite_cgram {a : BitVec 6} (ha : r.addr = .cgram a) (n : Nat) (b : Byte) :
    Panel.onDataWrite n b (.known r) =
      .known { r with cgram := Memory.write r.cgram a.toNat b, addr := .cgram (Config.advanceCgram r.dir a) } := by
  simp only [Panel.onDataWrite, ha]

/-- Settles O42: the written memory reads the byte at the current address and is unchanged at every other. -/
theorem dataWriteStoresByte : Obligations.DataWriteStoresByte := by
  intro s r b hk hp
  have hpanel := latch_panel_known hk hp (busWord true b) fun n => Panel.onDataWrite n b
  refine ⟨fun a ha => ⟨_, rfl, ?_⟩, fun a ha => ⟨_, _, rfl, hpanel.trans (onDataWrite_cgram ha _ b), rfl,
    read_write_same _ _ _, fun _ hx => read_write_other _ _ hx, rfl⟩⟩
  rw [onDataWrite_ddram ha] at hpanel
  split
  next hd =>
    rw [if_pos hd] at hpanel
    exact ⟨_, hpanel, rfl, read_write_same _ _ _, fun _ hx => read_write_other _ _ hx, rfl⟩
  next hd => exact hpanel.trans (if_neg hd)

/-! ## FUNCTION_SET (R92) -/

/-- Every setting but two lines with the large font (U10). -/
theorem onFunctionSet_stated {lines font : Bool} (h : (lines && font) = false) (n : Nat) (dl : Bool) (p : Panel) :
    p.onFunctionSet n dl lines font = if dl then .functionSet lines font else .fourBit lines font := by
  rw [Panel.onFunctionSet, if_neg (ne_true_of_eq_false h)]

/-- Settles O49: the panel takes the effect of the function set. -/
theorem functionSetEffects : Obligations.FunctionSetEffects := fun _ _ _ _ hp hl h4 hnf =>
  ⟨_, rfl, (latch_panel_effect hp (not_stuck hl h4) _ _).trans (onFunctionSet_stated hnf _ _ _)⟩

/-! ## The words without a stated effect (R89, R90, U7, U10) -/

theorem latched_unstated_blank {p : Panel} (h : p.blank) (n : Nat) : p.latched (Panel.unstated n) = p := by
  obtain rfl | rfl := h <;> rfl

theorem latched_unstated_any {p : Panel} (hb : ¬p.blank) (h4 : ∀ l f, p ≠ .fourBit l f) (n : Nat) :
    p.latched (Panel.unstated n) = anyPanel n := by
  cases p with
  | unknown => exact absurd (.inl rfl) hb
  | lost => exact absurd (.inr rfl) hb
  | fourBit l f => exact absurd rfl (h4 l f)
  | functionSet _ _ | displaySet _ _ _ _ _ | known _ => rfl

/-- Settles O43: the three words are latch events of one effect, and the function set of U10 with DL = 0 switches the
panel to 4-bit mode. -/
theorem unstatedPanelEffects : Obligations.UnstatedPanelEffects := by
  intro s hp
  have hpanel (w : BusWord) : (s.latch w Panel.unstated).panel = s.panel.latched (Panel.unstated s.free) :=
    latch_panel_of_premise hp w Panel.unstated
  refine ⟨⟨_, _, _, rfl, rfl, rfl, rfl, rfl, fun hb => ?_, fun h4 => ?_, fun hb h4 => ?_⟩,
    fun hl h4 => ⟨_, rfl, latch_panel_effect hp (not_stuck hl h4) _ _⟩⟩
  · exact (hpanel _).trans (latched_unstated_blank hb _)
  · exact latch_panel_stuck (.inr h4) _ _
  · exact (hpanel _).trans (latched_unstated_any hb h4 _)

end Sys2Proof.Proofs
end

section
/-! CERTIFICATE. The block without the panel: forgetting the panel, its events and its free values commutes with every
edge, so that nothing about the panel reaches the block, over any run (R30, R31, R100). -/

namespace Sys2Proof.Proofs

open Sys2Proof.Machine Sys2Proof.Laws

variable {s s' t t' : State} {i : Instr} {k : Nat}

/-! ## Forgetting the panel -/

/-- The state with everything about the panel forgotten: what is known of it, the events it has seen, and the free
values it will take. -/
def blockOf (s : State) : State := { s with panel := .unknown, trace := [], free := 0 }

theorem eq_of_blockOf_eq (h : blockOf t = blockOf t') :
    t = { t' with panel := t.panel, trace := t.trace, free := t.free } :=
  congrArg (fun v : State => { v with panel := t.panel, trace := t.trace, free := t.free }) h

theorem raise_blockOf (e : Err) (s : State) : (blockOf s).raise e = blockOf (s.raise e) := by
  cases e <;> rfl

theorem endPost_blockOf (s : State) : (blockOf s).endPost = blockOf s.endPost := by
  cases h : s.xferLong <;> simp [State.endPost, blockOf, h]

/-! ## Requests -/

/-- The lifecycle check reads nothing of the panel (R59). -/
theorem requireReady_blockOf {act : State → State} (h : act (blockOf s) = blockOf (act s)) :
    requireReady act (blockOf s) = mapNext blockOf (requireReady act s) := by
  by_cases hl : s.life = .ready
  · rw [requireReady_ready hl, requireReady_ready (s := blockOf s) hl, h, mapNext_next]
  · rw [requireReady_notReady hl, requireReady_notReady (s := blockOf s) hl, raise_blockOf, mapNext_next]

/-- INIT reads the lifecycle and its ports (R69). -/
theorem execInit_blockOf (s : State) : execInit (blockOf s) = mapNext blockOf (execInit s) := by
  simp only [execInit, apply_ite (mapNext blockOf)]
  rfl

/-- No request reads anything of the panel. -/
theorem hostExec_blockOf (hi : i.isHost = true) (s : State) : exec i (blockOf s) = mapNext blockOf (exec i s) := by
  cases i with
  | init => exact execInit_blockOf s
  | cmd _ | data _ | clear | home | setDir _ | setDisplay _ | setCursor _ | setBlink _ | setBitMode _ | setLines _
  | setFont _ =>
    simp only [exec, execCmd, execData, execClear, execHome, execSetDir, execSetDisplay, execSetCursor, execSetBlink,
      execSetBitMode, execSetLines, execSetFont]
    exact requireReady_blockOf rfl
  | selectLine n =>
    simp only [exec, execSelectLine]
    exact requireReady_blockOf (by cases lineBase n <;> rfl)
  | _ => simp [Instr.isHost] at hi

theorem dispatchWord_blockOf (w : HostWord) (s : State) :
    dispatchWord w (blockOf s) = mapNext blockOf (dispatchWord w s) := by
  unfold dispatchWord
  cases hd : decodeHost w with
  | instr i => exact hostExec_blockOf (decodeHost_isHost hd) s
  | illegal r => exact congrArg Host.Outcome.next (raise_blockOf .illegal s)

/-! ## Edges and runs -/

/-- The end of a phase: a latch event is of the panel alone, and the block goes on in the same way whatever the panel
makes of it (R63). -/
theorem advance_blockOf (s : State) : mapNext blockOf (advance (blockOf s)) = mapNext blockOf (advance s) := by
  have hph : (blockOf s).phase = s.phase := rfl
  cases hp : s.phase with
  | high =>
    obtain ⟨w, f, hl⟩ := latchLines_latch s
    obtain ⟨w', f', hl'⟩ := latchLines_latch (blockOf s)
    simp only [advance, hph, hp, hl, hl', mapNext_next]
    rfl
  | post => simp only [advance, hph, hp, mapNext_next, endPost_blockOf]; rfl
  | idle | setup | long => simp only [advance, hph, hp, mapNext_next]; rfl

/-- The index and the ports of the next edge have nothing of the panel in them (log 1, 8). -/
theorem afterEdge_blockOf (r : Result) :
    mapNext blockOf (mapNext State.afterEdge r) = mapNext State.afterEdge (mapNext blockOf r) := by
  cases r <;> rfl

/-- R100 at one edge: the block of the next state depends on the block of this one only. -/
theorem step_blockOf (s : State) : mapNext blockOf (step (blockOf s)) = mapNext blockOf (step s) := by
  cases hr : s.ports.rst with
  | true => rw [step_of_reset hr, step_of_reset (s := blockOf s) hr]; rfl
  | false =>
    by_cases hp : s.phase = .idle
    · cases hv : s.ports.reqValid with
      | true =>
        rw [step_of_accepts ⟨hr, hp, hv⟩, step_of_accepts (s := blockOf s) ⟨hr, hp, hv⟩, afterEdge_blockOf,
          afterEdge_blockOf]
        have hw : (blockOf s).ports.reqWord = s.ports.reqWord := rfl
        rw [hw, dispatchWord_blockOf]
        cases dispatchWord s.ports.reqWord s <;> rfl
      | false => rw [step_quiet hr hp hv, step_quiet (s := blockOf s) hr hp hv]; rfl
    · by_cases hc : 1 < s.cnt
      · rw [step_of_count hr hp hc, step_of_count (s := blockOf s) hr hp hc]; rfl
      · have hc := Nat.not_lt.1 hc
        rw [step_of_end hr hp hc, step_of_end (s := blockOf s) hr hp hc, afterEdge_blockOf,
          afterEdge_blockOf, advance_blockOf]

theorem step_sameBlock (h : blockOf s = blockOf s') (hs : step s = .next t) (hs' : step s' = .next t') :
    blockOf t = blockOf t' := by
  have hnext : (.next (blockOf t) : Result) = .next (blockOf t') :=
    calc (.next (blockOf t) : Result)
      _ = mapNext blockOf (step (blockOf s)) := by rw [step_blockOf, hs, mapNext_next]
      _ = .next (blockOf t') := by rw [h, step_blockOf, hs', mapNext_next]
  exact Host.Outcome.next.inj hnext

theorem run_sameBlock (h : blockOf s = blockOf s') (hs : run k s = .next t) (hs' : run k s' = .next t') :
    blockOf t = blockOf t' := by
  induction k generalizing s s' with
  | zero => cases hs; cases hs'; exact h
  | succ k ih =>
    obtain ⟨u, hu, hs⟩ := run_succ_eq_next.1 hs
    obtain ⟨u', hu', hs'⟩ := run_succ_eq_next.1 hs'
    exact ih (step_sameBlock h hu hu') hs hs'

/-- Settles O39: the two states have the same block, and so have the ends of their runs. -/
theorem panelCannotReachBlock : Obligations.PanelCannotReachBlock := by
  intro k s t t' p tr n hs hs'
  have hblock : blockOf s = blockOf { s with panel := p, trace := tr, free := n } := rfl
  exact eq_of_blockOf_eq (run_sameBlock hblock hs hs')

end Sys2Proof.Proofs
end

section
/-! CERTIFICATE. The errors (R96 to R99): what an accepted request leaves when it raises one, and that every other edge
without reset keeps the sticky bits. -/

namespace Sys2Proof.Proofs

open Sys2Proof.Machine Sys2Proof.Laws

variable {s t u : State} {i : Instr} {e : Err}

/-! ## The error that an accepted word raises (R98) -/

/-- What a request that raises `e` leaves: the sticky bit, and FAILED with ERR_CFG (R97). -/
def rejected (e : Err) (s : State) : State :=
  ({ s with life := if e = .cfg then .failed else s.life } : State).raise e

theorem raisedError_illegal {r : Reject} (hd : decodeHost s.ports.reqWord = .illegal r) :
    raisedError s = some .illegal := by
  simp only [raisedError, hd]

theorem raisedError_init (hd : decodeHost s.ports.reqWord = .instr .init) :
    raisedError s = if s.life ≠ .uninit then some .reinit
      else if pinsValid s.params.numGpio s.cfgPins then none else some .cfg := by
  simp only [raisedError, hd]

theorem raisedError_other (hd : decodeHost s.ports.reqWord = .instr i) (hi : i ≠ .init) :
    raisedError s = if s.life ≠ .ready then some .notInit else none := by
  simp only [raisedError, hd]

theorem errBit_congr (hc : u.errCfg = s.errCfg) (hn : u.errNotInit = s.errNotInit) (hr : u.errReinit = s.errReinit)
    (hi : u.errIllegal = s.errIllegal) (e : Err) : u.errBit e = s.errBit e := by
  cases e <;> assumption

/-- A legal request either raises its error and has no other effect, or raises none and keeps the sticky bits. -/
theorem requestTo_raisedError (hd : decodeHost s.ports.reqWord = .instr i) (hu : RequestTo i s u) :
    (∃ e, raisedError s = some e ∧ u = rejected e s) ∨ (raisedError s = none ∧ ∀ e, u.errBit e = s.errBit e) := by
  cases hu with
  | initReady hi hl hv =>
    subst hi
    exact .inr ⟨by simp [raisedError_init hd, hl, hv], errBit_congr rfl rfl rfl rfl⟩
  | initFailed hi hl hv =>
    subst hi
    exact .inl ⟨.cfg, by simp [raisedError_init hd, hl, hv], rfl⟩
  | initAgain hi hl =>
    subst hi
    exact .inl ⟨.reinit, by simp [raisedError_init hd, hl], rfl⟩
  | notReady hi hl => exact .inl ⟨.notInit, by simp [raisedError_other hd hi, hl], rfl⟩
  | noLine hi hl => exact .inr ⟨by simp [raisedError_other hd hi, hl], fun _ => rfl⟩
  | transfer hi hl hs =>
    obtain ⟨c, m, rs, b, long, -, rfl⟩ := hs
    exact .inr ⟨by simp [raisedError_other hd hi, hl], errBit_congr rfl rfl rfl rfl⟩

theorem dispatch_raisedError (hu : dispatchWord s.ports.reqWord s = .next u) :
    (∃ e, raisedError s = some e ∧ u = rejected e s) ∨ (raisedError s = none ∧ ∀ e, u.errBit e = s.errBit e) := by
  obtain ⟨r, hd, hx⟩ | ⟨i, hd, hi, hx⟩ := dispatch_cases s.ports.reqWord s
  · cases hx.symm.trans hu
    exact .inl ⟨.illegal, raisedError_illegal hd, rfl⟩
  · exact requestTo_raisedError hd (requestTo_of_exec hi (hx.symm.trans hu))

theorem rejected_errBit (e x : Err) (s : State) : (rejected e s).errBit x = (decide (x = e) || s.errBit x) := by
  rw [rejected, raise_errBit]
  cases x <;> rfl

/-- A rejected request leaves every field but `life` and the sticky bits. -/
theorem rejected_eq (e : Err) (s : State) : rejected e s =
    { s with
      life := if e = .cfg then .failed else s.life
      errCfg := (rejected e s).errCfg, errNotInit := (rejected e s).errNotInit
      errReinit := (rejected e s).errReinit, errIllegal := (rejected e s).errIllegal } := by
  cases e <;> rfl

/-- Settles O25: the step dispatches the word, which is rejected. -/
theorem raisingRequestHasNoOtherEffect : Obligations.RaisingRequestHasNoOtherEffect := by
  intro s e ha he
  obtain ⟨u, hu⟩ := dispatchWord_answers s.ports.reqWord s
  obtain ⟨e', he', rfl⟩ | ⟨hnone, -⟩ := dispatch_raisedError hu
  · obtain rfl : e' = e := Option.some.inj (he'.symm.trans he)
    have hidle : (rejected e' s).phase = .idle := (raise_phase _ e').trans ha.2.1
    refine ⟨(rejected e' s).afterEdge, ?_, decide_eq_true hidle, fun x => rejected_errBit e' x s, ?_⟩
    · rw [step_of_accepts ha, hu, mapNext_next]
    · exact congrArg State.afterEdge (rejected_eq e' s)
  · cases hnone.symm.trans he

/-! ## The sticky bits (R99) -/

/-- An edge that accepts no request and is no reset keeps the sticky bits. -/
theorem edgeTo_keeps_errBit (hr : s.ports.rst = false) (ha : ¬s.accepts) (hu : EdgeTo s u) (e : Err) :
    u.errBit e = s.errBit e := by
  cases hu with
  | reset hr' => cases hr.symm.trans hr'
  | illegal ha' => exact absurd ha' ha
  | request ha' => exact absurd ha' ha
  | quiet _ _ _ => rfl
  | post _ _ _ =>
    exact errBit_congr (endPost_errCfg s) (endPost_errNotInit s) (endPost_errReinit s) (endPost_errIllegal s) e
  | count _ _ _ | setup _ _ _ | high _ _ _ _ _ | long _ _ _ => exact errBit_congr rfl rfl rfl rfl e

/-- Settles O26: an accepted word adds the error it raises, if any, and every other edge keeps the bits. -/
theorem stickyBitsAccumulate : Obligations.StickyBitsAccumulate := by
  intro s t hst hr
  refine ⟨fun ha e => ?_, fun ha e => ?_⟩
  · obtain ⟨u, hu, rfl⟩ := mapNext_eq_next.1 ((step_of_accepts ha).symm.trans hst)
    show u.errBit e = _
    obtain ⟨e', he', rfl⟩ | ⟨hnone, hkept⟩ := dispatch_raisedError hu
    · rw [rejected_errBit, he', Bool.or_comm]
      simp only [Option.some.injEq, eq_comm]
    · simp [hnone, hkept]
  · obtain ⟨u, hu, rfl⟩ := step_cases hst
    exact edgeTo_keeps_errBit hr ha hu e

end Sys2Proof.Proofs
end

section
/-! CERTIFICATE. The reset edge as the block shows it (R110, R111), and the state after reset (R29). -/

namespace Sys2Proof.Proofs

open Sys2Proof.Machine Sys2Proof.Laws

/-- Settles O11: the registers that a reset edge writes, and the outputs of a block that is not READY. -/
theorem resetValues : Obligations.ResetValues := by
  intro s hr
  have hctrl : (CtrlReg.ofByte 0x08#8).byte = 0x08#8 := by decide
  have hmode : (ModeReg.ofByte 0x30#8).byte = 0x30#8 := by decide
  have hstatus : s.doReset.afterEdge.status = 0x00#8 := by simp [State.status]
  have hunused (p : Nat) : s.doReset.afterEdge.pinUsed p = false := pinUsed_notReady (by simp) p
  exact ⟨_, step_of_reset hr, rfl, rfl, rfl, rfl, rfl, rfl, rfl, hctrl, hmode, hstatus, rfl, rfl, rfl, rfl, rfl,
    fun p => outputs_unused (hunused p)⟩

/-- Settles O38: an idle block with its lines low, which has recorded no event and knows nothing of the panel. -/
theorem resetMeetsInvariant : Obligations.ResetMeetsInvariant where
  lines := linesInv_of_idle rfl rfl rfl fun _ => rfl
  counter := counterBounded_of_idle rfl
  longInstr hp := absurd rfl hp
  paramsOk := by decide
  pins hl := by cases hl
  pinsFit := by decide
  panelBlank _ := .inl rfl
  panelWf := blank_wf (.inl rfl)
  traceOrder := ⟨.nil, fun _ he => absurd he List.not_mem_nil⟩

end Sys2Proof.Proofs
end

section
/-! CERTIFICATE. The stages by which a panel becomes known (R117, R119), and the ways in which nothing more can be said of
it: a switch to 4-bit mode (R116), an order or a premise that the host does not keep (R117, R113, R120). -/

namespace Sys2Proof.Proofs

open Sys2Proof.Machine Sys2Proof.Laws

variable {s t u : State} {i : Instr} {p : Panel} {r : PanelRegs} {w : BusWord} {f : Nat → Panel → Panel} {n : Nat}

/-! ## The words that leave a stage as it is (R117) -/

/-- An effect that leaves every panel as it is that is not known. -/
def KeepsUnlessKnown (f : Panel → Panel) : Prop := ∀ p, (∀ r, p ≠ .known r) → f p = p

theorem keepsUnlessKnown_of_cases {f : Panel → Panel} (hu : f .unknown = .unknown)
    (hf : ∀ l g, f (.functionSet l g) = .functionSet l g)
    (hd : ∀ l g d c b, f (.displaySet l g d c b) = .displaySet l g d c b) (h4 : ∀ l g, f (.fourBit l g) = .fourBit l g)
    (hl : f .lost = .lost) : KeepsUnlessKnown f := by
  intro p hk
  cases p with
  | unknown => exact hu
  | functionSet l g => exact hf l g
  | displaySet l g d c b => exact hd l g d c b
  | known r => exact absurd rfl (hk r)
  | fourBit l g => exact h4 l g
  | lost => exact hl

theorem onReturnHome_keepsUnlessKnown : KeepsUnlessKnown Panel.onReturnHome :=
  keepsUnlessKnown_of_cases rfl (fun _ _ => rfl) (fun _ _ _ _ _ => rfl) (fun _ _ => rfl) rfl

theorem onSetDir_keepsUnlessKnown (d : WriteDir) : KeepsUnlessKnown (Panel.onSetDir d) :=
  keepsUnlessKnown_of_cases rfl (fun _ _ => rfl) (fun _ _ _ _ _ => rfl) (fun _ _ => rfl) rfl

theorem onSetAddr_keepsUnlessKnown (a : PanelAddr) : KeepsUnlessKnown (Panel.onSetAddr a) :=
  keepsUnlessKnown_of_cases rfl (fun _ _ => rfl) (fun _ _ _ _ _ => rfl) (fun _ _ => rfl) rfl

theorem onDataWrite_keepsUnlessKnown (n : Nat) (b : Byte) : KeepsUnlessKnown (Panel.onDataWrite n b) :=
  keepsUnlessKnown_of_cases rfl (fun _ _ => rfl) (fun _ _ _ _ _ => rfl) (fun _ _ => rfl) rfl

/-- The latch of such an effect leaves the panel as it is, a lost one too. -/
theorem latch_panel_kept (hp : s.panelPremise = true) (hk : ∀ r, s.panel ≠ .known r)
    (h4 : ∀ l f, s.panel ≠ .fourBit l f) (w : BusWord) (hf : ∀ n, KeepsUnlessKnown (f n)) :
    (s.latch w f).panel = s.panel := by
  by_cases hl : s.panel = .lost
  · rw [latch_panel_stuck (.inl hl), hl]
  · rw [latch_panel_effect hp (not_stuck hl h4), hf _ _ hk]

/-- Settles O50: the six words keep what is not known, and a display control gives the second stage from either. -/
theorem panelStagesStay : Obligations.PanelStagesStay := by
  refine ⟨fun s i hi hp hk h4 => ?_, fun s n f d c b hp hs => ⟨_, rfl, ?_⟩⟩
  · have hkept (w : BusWord) {f : Nat → Panel → Panel} := latch_panel_kept (f := f) hp hk h4 w
    obtain rfl | rfl | rfl | ⟨a, rfl⟩ | ⟨a, rfl⟩ | ⟨b, rfl⟩ := hi
    · exact ⟨_, rfl, hkept _ fun _ => onReturnHome_keepsUnlessKnown⟩
    · exact ⟨_, rfl, hkept _ fun _ => onSetDir_keepsUnlessKnown .left⟩
    · exact ⟨_, rfl, hkept _ fun _ => onSetDir_keepsUnlessKnown .right⟩
    · exact ⟨_, rfl, hkept _ fun _ => onSetAddr_keepsUnlessKnown (.cgram a)⟩
    · exact ⟨_, rfl, hkept _ fun _ => onSetAddr_keepsUnlessKnown (.ddram a)⟩
    · exact ⟨_, rfl, hkept _ fun n => onDataWrite_keepsUnlessKnown n b⟩
  · rw [latch_panel_of_premise hp]
    obtain hs | ⟨x, y, z, hs⟩ := hs <;> rw [hs] <;> rfl

/-! ## An order or a premise that the host does not keep (R117, R113, R120) -/

/-- Without the premise nothing can be said of the panel (U8; log 18). -/
theorem latch_panel_noPremise (hp : s.panelPremise = false) (w : BusWord) (f : Nat → Panel → Panel) :
    (s.latch w f).panel = .lost := by
  rw [latch_panel, if_neg (ne_true_of_eq_false hp)]

/-- An effect that loses the panel does so with and without the premise. -/
theorem latch_panel_lost (hf : s.panel.latched (f s.free) = .lost) (w : BusWord) : (s.latch w f).panel = .lost := by
  rw [latch_panel, hf, ite_self]

/-- Settles O48: the two words that come out of order, and every word without the premise. -/
theorem unmetDutiesLosePanel : Obligations.UnmetDutiesLosePanel := by
  refine ⟨fun s d c b hs => ⟨_, rfl, latch_panel_lost ?_ _⟩, fun s hs => ⟨_, rfl, latch_panel_lost ?_ _⟩,
    fun s i hi hp => ?_⟩
  · rw [hs]
    rfl
  · obtain hs | ⟨n, f, hs⟩ := hs <;> rw [hs] <;> rfl
  · obtain ⟨w, f, hx⟩ := panelExec_latch i hi s
    exact ⟨_, hx, latch_panel_noPremise hp w f⟩

/-! ## The panel over an edge -/

/-- An edge leaves the panel as it is, unless it is a reset edge or the one at which the panel latches the lines. -/
theorem edgeTo_panel (hu : EdgeTo s u) :
    u.panel = s.panel ∨ (s.ports.rst = true ∧ u.panel = s.panel.atReset s.phase) ∨
      (s.ports.rst = false ∧ s.phase = .high ∧ s.cnt ≤ 1 ∧ ∃ v, latchLines s = .next v ∧ u.panel = v.panel) := by
  cases hu with
  | reset hr => exact .inr (.inl ⟨hr, rfl⟩)
  | high hr hp hc _ hl => exact .inr (.inr ⟨hr, hp, hc, _, hl, rfl⟩)
  | request ha hd hx => exact .inl (requestTo_panel (requestTo_of_exec (decodeHost_isHost hd) hx)).1
  | post _ _ _ => exact .inl (endPost_panel s)
  | quiet _ _ _ | illegal _ _ | count _ _ _ | setup _ _ _ | long _ _ _ => exact .inl rfl

/-! ## 4-bit mode (R116) -/

/-- With DL = 0 a function set switches the panel to 4-bit mode, whatever its lines and font (R92, U10). -/
theorem onFunctionSet_fourBit (n : Nat) (lines font : Bool) (p : Panel) :
    ∃ l g, p.onFunctionSet n false lines font = .fourBit l g := by
  cases h : lines && font with
  | true => exact ⟨_, _, by rw [Panel.onFunctionSet, if_pos h]; rfl⟩
  | false => exact ⟨_, _, onFunctionSet_stated h n false p⟩

/-- A function set with DL = 0 leaves a panel in 4-bit mode or lost, from every state. -/
theorem latch_functionSet_stuck (w : BusWord) (lines font : Bool) :
    Stuck (s.latch w fun k => Panel.onFunctionSet k false lines font).panel := by
  cases hp : s.panelPremise with
  | false => exact .inl (latch_panel_noPremise hp _ _)
  | true =>
    by_cases hs : Stuck s.panel
    · exact .inl (latch_panel_stuck hs _ _)
    · rw [latch_panel_effect hp hs]
      exact .inr (onFunctionSet_fourBit _ _ _ _)

/-- A reset does not end 4-bit mode, nor the loss of the panel (log 12). -/
theorem atReset_stuck (h : Stuck p) (ph : Phase) : p.atReset ph = .lost := by
  have hu : p.undriven = .lost := by obtain rfl | ⟨l, g, rfl⟩ := h <;> rfl
  rw [Panel.atReset, hu, ite_self]

/-- An edge leaves a panel in 4-bit mode or lost as it is, or loses it. -/
theorem step_stuck (h : Stuck s.panel) (hst : step s = .next t) : t.panel = .lost ∨ t.panel = s.panel := by
  obtain ⟨u, hu, rfl⟩ := step_cases hst
  rw [afterEdge_panel]
  obtain hkept | ⟨-, hreset⟩ | ⟨-, -, -, v, hv, hlatch⟩ := edgeTo_panel hu
  · exact .inr hkept
  · exact .inl (hreset.trans (atReset_stuck h _))
  · obtain ⟨w, f, hw⟩ := latchLines_latch s
    cases hw.symm.trans hv
    exact .inl (hlatch.trans (latch_panel_stuck h w f))

/-- A lost panel stays lost. -/
theorem step_lost (h : s.panel = .lost) (hst : step s = .next t) : t.panel = .lost :=
  (step_stuck (.inl h) hst).elim id (·.trans h)

/-- A panel in 4-bit mode keeps its lines and font until it is lost. -/
theorem step_fourBit {l g : Bool} (h : s.panel = .lost ∨ s.panel = .fourBit l g) (hst : step s = .next t) :
    t.panel = .lost ∨ t.panel = .fourBit l g := by
  obtain h | h := h
  · exact .inl (step_lost h hst)
  · exact (step_stuck (.inr ⟨l, g, h⟩) hst).imp_right (·.trans h)

/-- Settles O45: the function set of DL = 0 by its effect, a later word by its latch, and a run edge by edge. -/
theorem fourBitModeLosesPanel : Obligations.FourBitModeLosesPanel := by
  refine ⟨fun s n f => ⟨_, rfl, latch_functionSet_stuck _ n f⟩, fun s i hi hs => ?_, fun k s t hrun => ⟨fun h => ?_,
    fun l g h => ?_⟩⟩
  · obtain ⟨w, f, hx⟩ := panelExec_latch i hi s
    exact ⟨_, hx, latch_panel_stuck hs w f⟩
  · exact run_keeps (P := fun s => s.panel = .lost) (fun _ _ => step_lost) h hrun
  · exact run_keeps (P := fun s => s.panel = .lost ∨ s.panel = .fourBit l g) (fun _ _ => step_fourBit) (.inr h) hrun

/-! ## The initialization sequence (R114, R117, R119) -/

/-- A latch event keeps the premise, which speaks of the counts and the index of the edge only (R113, R120). -/
theorem latch_panelPremise (w : BusWord) (f : Nat → Panel → Panel) :
    (s.latch w f).panelPremise = s.panelPremise := rfl

/-- The sequence from any panel that can still become known, stage by stage. -/
theorem execAll_initialization {lines font : Bool} (hs : ¬Stuck s.panel) (hp : s.panelPremise = true)
    (hnf : (lines && font) = false) (d c b : Bool) :
    ∃ t, execAll [.functionSet true lines font, .displayControl d c b, .clearDisplay] s = .next t ∧
      t.panel = Panel.onClearDisplay (s.free + 2) (.displaySet lines font d c b) := by
  refine ⟨_, rfl, ?_⟩
  simp only [latch_panel, latch_panelPremise, latch_free, hp, if_true, latched_effect hs, onFunctionSet_stated hnf]
  rfl

/-- A stage of the initialization: after the function set, or after the display control too (log 11). -/
def AtStage (p : Panel) : Prop := (∃ n f, p = .functionSet n f) ∨ ∃ n f d c b, p = .displaySet n f d c b

/-- The words of the document whose effect it does not state (U7, U10). -/
def UnstatedWord (i : Instr) : Prop := i = .shiftRight ∨ i = .shiftLeft ∨ i = .functionSet true true true

/-- A latch that leaves a known panel takes its effect, under the premise. -/
theorem latch_panel_eq_known (h : (s.latch w f).panel = .known r) :
    s.panelPremise = true ∧ ¬Stuck s.panel ∧ f s.free s.panel = .known r := by
  have hp : s.panelPremise = true := by
    rw [← Bool.not_eq_false]
    intro hp
    cases (latch_panel_noPremise hp w f).symm.trans h
  have hs : ¬Stuck s.panel := fun hs => by cases (latch_panel_stuck hs w f).symm.trans h
  exact ⟨hp, hs, (latch_panel_effect hp hs w f).symm.trans h⟩

/-- Only at a stage does a word without a stated effect make a panel known, with a free value (log 13). -/
theorem unstated_eq_known (hs : ¬Stuck p) (hk : ∀ q, p ≠ .known q) (h : p.unstated n = .known r) :
    AtStage p ∧ p.unstated n = anyPanel n := by
  cases p with
  | unknown => cases h
  | functionSet l g => exact ⟨.inl ⟨l, g, rfl⟩, rfl⟩
  | displaySet l g d c b => exact ⟨.inr ⟨l, g, d, c, b, rfl⟩, rfl⟩
  | known q => exact absurd rfl (hk q)
  | fourBit l g => exact absurd (.inr ⟨l, g, rfl⟩) hs
  | lost => exact absurd (.inl rfl) hs

theorem latch_unstated_eq_known (hk : ∀ q, s.panel ≠ .known q) (h : (s.latch w Panel.unstated).panel = .known r) :
    s.panelPremise = true ∧ (s.latch w Panel.unstated).panel = anyPanel s.free ∧ AtStage s.panel := by
  obtain ⟨hp, hs, hf⟩ := latch_panel_eq_known h
  obtain ⟨hstage, hany⟩ := unstated_eq_known hs hk hf
  exact ⟨hp, h.trans (hf.symm.trans hany), hstage⟩

theorem onClearDisplay_eq_known (hk : ∀ q, p ≠ .known q) (h : p.onClearDisplay n = .known r) :
    ∃ l g d c b, p = .displaySet l g d c b := by
  cases p with
  | displaySet l g d c b => exact ⟨l, g, d, c, b, rfl⟩
  | known q => exact absurd rfl (hk q)
  | unknown | functionSet _ _ | fourBit _ _ | lost => cases h

theorem onDisplayControl_ne_known (hk : ∀ q, p ≠ .known q) (d c b : Bool) : p.onDisplayControl d c b ≠ .known r := by
  intro h
  cases p with
  | known q => exact hk q rfl
  | unknown | functionSet _ _ | displaySet _ _ _ _ _ | fourBit _ _ | lost => cases h

/-- The one function set that may leave a known panel is that of U10. -/
theorem onFunctionSet_eq_known {dl lines font : Bool} (h : p.onFunctionSet n dl lines font = .known r) :
    dl = true ∧ lines = true ∧ font = true := by
  cases hnf : lines && font with
  | true =>
    obtain ⟨rfl, rfl⟩ := Bool.and_eq_true_iff.1 hnf
    cases dl with
    | true => exact ⟨rfl, rfl, rfl⟩
    | false => cases h
  | false =>
    rw [onFunctionSet_stated hnf] at h
    cases dl <;> cases h

/-- A panel becomes known by a clear at the second stage, or at a stage by the free value of an unstated effect. -/
theorem panelExec_eq_known (hi : i.isHost = false) (hk : ∀ q, s.panel ≠ .known q) (hx : exec i s = .next u)
    (hu : u.panel = .known r) :
    s.panelPremise = true ∧ ((i = .clearDisplay ∧ ∃ n f d c b, s.panel = .displaySet n f d c b) ∨
      (u.panel = anyPanel s.free ∧ AtStage s.panel ∧ UnstatedWord i)) := by
  have hkept {w : BusWord} {f : Nat → Panel → Panel} (hf : ∀ n, KeepsUnlessKnown (f n)) :
      (s.latch w f).panel ≠ .known r := fun h =>
    hk r ((hf _ _ hk).symm.trans (latch_panel_eq_known h).2.2)
  cases i with
  | clearDisplay =>
    cases hx
    obtain ⟨hp, -, hf⟩ := latch_panel_eq_known hu
    exact ⟨hp, .inl ⟨rfl, onClearDisplay_eq_known hk hf⟩⟩
  | shiftRight =>
    cases hx
    obtain ⟨hp, hany, hstage⟩ := latch_unstated_eq_known hk hu
    exact ⟨hp, .inr ⟨hany, hstage, .inl rfl⟩⟩
  | shiftLeft =>
    cases hx
    obtain ⟨hp, hany, hstage⟩ := latch_unstated_eq_known hk hu
    exact ⟨hp, .inr ⟨hany, hstage, .inr (.inl rfl)⟩⟩
  | functionSet dl n f =>
    cases hx
    obtain ⟨rfl, rfl, rfl⟩ := onFunctionSet_eq_known (latch_panel_eq_known hu).2.2
    obtain ⟨hp, hany, hstage⟩ := latch_unstated_eq_known hk hu
    exact ⟨hp, .inr ⟨hany, hstage, .inr (.inr rfl)⟩⟩
  | displayControl d c b =>
    cases hx
    exact absurd (latch_panel_eq_known hu).2.2 (onDisplayControl_ne_known hk d c b)
  | returnHome => cases hx; exact absurd hu (hkept fun _ => onReturnHome_keepsUnlessKnown)
  | writeLeft | writeRight => cases hx; exact absurd hu (hkept fun _ => onSetDir_keepsUnlessKnown _)
  | setCgram _ | setDdram _ => cases hx; exact absurd hu (hkept fun _ => onSetAddr_keepsUnlessKnown _)
  | dataWrite b => cases hx; exact absurd hu (hkept fun n => onDataWrite_keepsUnlessKnown n b)
  | _ => cases hi

/-- The same at a latch edge, by the word on the lines (R54, R114). -/
theorem latchLines_eq_known (hk : ∀ q, s.panel ≠ .known q) (hl : latchLines s = .next u) (hu : u.panel = .known r) :
    s.panelPremise = true ∧ ((s.busWord = 0x001#9 ∧ ∃ n f d c b, s.panel = .displaySet n f d c b) ∨
      (u.panel = anyPanel s.free ∧ AtStage s.panel ∧
        (s.busWord = 0x005#9 ∨ s.busWord = 0x007#9 ∨ s.busWord = 0x03C#9 ∨
          ∃ e, decodePanel s.busWord = .illegal e))) := by
  unfold latchLines at hl
  cases hd : decodePanel s.busWord with
  | instr i =>
    rw [hd] at hl
    have hword {v : BusWord} (hv : encode i = .panel v) : s.busWord = v :=
      Code.panel.inj ((encode_of_decodePanel hd).symm.trans hv)
    obtain ⟨hp, ⟨rfl, hset⟩ | ⟨hany, hstage, hi⟩⟩ := panelExec_eq_known (decodePanel_isPanel hd) hk hl hu
    · exact ⟨hp, .inl ⟨hword rfl, hset⟩⟩
    · refine ⟨hp, .inr ⟨hany, hstage, ?_⟩⟩
      obtain rfl | rfl | rfl := hi
      · exact .inl (hword rfl)
      · exact .inr (.inl (hword rfl))
      · exact .inr (.inr (.inl (hword rfl)))
  | illegal e =>
    rw [hd] at hl
    cases hl
    obtain ⟨hp, hany, hstage⟩ := latch_unstated_eq_known hk hu
    exact ⟨hp, .inr ⟨hany, hstage, .inr (.inr (.inr ⟨e, rfl⟩))⟩⟩

/-- Settles O44: the sequence by its three effects, and an edge that makes a panel known by the word it latches. -/
theorem initializationMakesPanelKnown : Obligations.InitializationMakesPanelKnown := by
  refine ⟨fun s n f d c b hl h4 hp hnf => execAll_initialization (not_stuck hl h4) hp hnf d c b,
    fun s t r hst ht hk => ?_⟩
  obtain ⟨u, hu, rfl⟩ := step_cases hst
  rw [afterEdge_panel] at ht ⊢
  obtain hkept | ⟨-, hreset⟩ | ⟨hr, hph, hc, v, hv, hlatch⟩ := edgeTo_panel hu
  · exact absurd (hkept.symm.trans ht) (hk r)
  · obtain hb | hb := atReset_blank s.phase s.panel <;> cases (hreset.trans hb).symm.trans ht
  · rw [hlatch] at ht ⊢
    exact ⟨hr, hph, hc, latchLines_eq_known hk hv ht⟩

end Sys2Proof.Proofs
end
